-- ==== Sys2Proof/Word.lean ====
section
/-! DEFINITION. The widths of the machine's values: bytes, 16-bit words, register and key indices. -/

namespace Sys2Proof

/-- An 8-bit unsigned value: a memory byte, a V register, a timer (00_scope.md R5, XLEN; 10_state.md R21). -/
abbrev Byte := BitVec 8

/-- A 16-bit value: an instruction word, PC, I, a stack entry (00_scope.md R5, ILEN, PC_BITS, I_BITS). -/
abbrev Word := BitVec 16

/-- The index of one of the 16 registers V[0] to V[15] (10_state.md R21). -/
abbrev RegIdx := Fin 16

/-- The index of one of the 16 keys (10_state.md R35). -/
abbrev KeyIdx := Fin 16

end Sys2Proof
end

