-- ==== Sys2Proof/Syntax.lean ====
section
/-! DEFINITION. The instructions: one constructor for each of the 34 rows of the opcode map (30_encoding.md R76). -/

namespace Sys2Proof

/-- An instruction with its operands (30_encoding.md R76, R80). Register fields are `Fin 16`, immediates are
bit vectors of the encoding's width (R71), so every term has in-range operands and every operand value the
encoding admits has a term. Constructor names follow the table's mnemonics (PRESUMED labels, log entry 20). -/
inductive Instr where
  /-- 00E0 (44_display.md R141). -/
  | cls
  /-- 00EE (41_flow_stack.md R102). -/
  | ret
  /-- 1nnn (R100). -/
  | jp (nnn : BitVec 12)
  /-- 2nnn (R101). -/
  | call (nnn : BitVec 12)
  /-- 3xkk (R103). -/
  | seVxKk (x : RegIdx) (kk : Byte)
  /-- 4xkk (R104). -/
  | sneVxKk (x : RegIdx) (kk : Byte)
  /-- 5xy0 (R105). -/
  | seVxVy (x y : RegIdx)
  /-- 6xkk (42_alu.md R111). -/
  | ldVxKk (x : RegIdx) (kk : Byte)
  /-- 7xkk (R112). -/
  | addVxKk (x : RegIdx) (kk : Byte)
  /-- 8xy0 (R113). -/
  | ldVxVy (x y : RegIdx)
  /-- 8xy1 (R114). -/
  | orVxVy (x y : RegIdx)
  /-- 8xy2 (R115). -/
  | andVxVy (x y : RegIdx)
  /-- 8xy3 (R116). -/
  | xorVxVy (x y : RegIdx)
  /-- 8xy4 (R117). -/
  | addVxVy (x y : RegIdx)
  /-- 8xy5 (R118). -/
  | subVxVy (x y : RegIdx)
  /-- 8xy6 (R119). -/
  | shrVxVy (x y : RegIdx)
  /-- 8xy7 (R120). -/
  | subnVxVy (x y : RegIdx)
  /-- 8xyE (R121). -/
  | shlVxVy (x y : RegIdx)
  /-- 9xy0 (41_flow_stack.md R106). -/
  | sneVxVy (x y : RegIdx)
  /-- Annn (43_index_memory.md R130). -/
  | ldINnn (nnn : BitVec 12)
  /-- Bnnn (41_flow_stack.md R107). -/
  | jpV0Nnn (nnn : BitVec 12)
  /-- Cxkk (42_alu.md R122). -/
  | rndVxKk (x : RegIdx) (kk : Byte)
  /-- Dxyn (44_display.md R142). -/
  | drwVxVyN (x y : RegIdx) (n : BitVec 4)
  /-- Ex9E (45_timer_keypad.md R153). -/
  | skpVx (x : RegIdx)
  /-- ExA1 (R154). -/
  | sknpVx (x : RegIdx)
  /-- Fx07 (R150). -/
  | ldVxDt (x : RegIdx)
  /-- Fx0A (R155). -/
  | ldVxK (x : RegIdx)
  /-- Fx15 (R151). -/
  | ldDtVx (x : RegIdx)
  /-- Fx18 (R152). -/
  | ldStVx (x : RegIdx)
  /-- Fx1E (43_index_memory.md R131). -/
  | addIVx (x : RegIdx)
  /-- Fx29 (R132). -/
  | ldFVx (x : RegIdx)
  /-- Fx33 (R133). -/
  | ldBVx (x : RegIdx)
  /-- Fx55 (R134). -/
  | ldMiVx (x : RegIdx)
  /-- Fx65 (R135). -/
  | ldVxMi (x : RegIdx)
  deriving DecidableEq, Repr

end Sys2Proof
end

