-- ==== Sys2Proof/Decode.lean ====
section
/-! DEFINITION. Decoding, total on every word and rejecting by name, and the encoder (30_encoding.md). -/

namespace Sys2Proof

/-- Why a word is illegal: the rows of the table of illegal words (30_encoding.md R78). Raised by `decodeWord`;
`step` turns each into DecodeError, as the spec says, so it is safe. -/
inductive Illegal where
  /-- class 0, and neither 0x00E0 nor 0x00EE -/
  | class0
  /-- class 5 with n ≠ 0 -/
  | class5
  /-- class 8 with n in 8..D, F -/
  | class8
  /-- class 9 with n ≠ 0 -/
  | class9
  /-- class E with kk not 9E or A1 -/
  | classE
  /-- class F with kk not 07, 0A, 15, 18, 1E, 29, 33, 55, 65 -/
  | classF
  deriving DecidableEq, Repr

/-- The field class, w[15:12] (30_encoding.md R71). -/
def fieldClass (w : Word) : BitVec 4 := w.extractLsb' 12 4

/-- The field x, w[11:8], as a register index (30_encoding.md R71, R73). -/
def fieldX (w : Word) : RegIdx := (w.extractLsb' 8 4).toFin

/-- The field y, w[7:4], as a register index (30_encoding.md R71, R73). -/
def fieldY (w : Word) : RegIdx := (w.extractLsb' 4 4).toFin

/-- The field n, w[3:0] (30_encoding.md R71). -/
def fieldN (w : Word) : BitVec 4 := w.extractLsb' 0 4

/-- The field kk, w[7:0] (30_encoding.md R71). -/
def fieldKk (w : Word) : Byte := w.extractLsb' 0 8

/-- The field nnn, w[11:0] (30_encoding.md R71). -/
def fieldNnn (w : Word) : BitVec 12 := w.extractLsb' 0 12

/-- Class 8 is selected by the low nibble (30_encoding.md R74; 90_conflicts.md C4). -/
def decodeClass8 (w : Word) : Except Illegal Instr :=
  match fieldN w with
  | 0x0#4 => .ok (.ldVxVy (fieldX w) (fieldY w))
  | 0x1#4 => .ok (.orVxVy (fieldX w) (fieldY w))
  | 0x2#4 => .ok (.andVxVy (fieldX w) (fieldY w))
  | 0x3#4 => .ok (.xorVxVy (fieldX w) (fieldY w))
  | 0x4#4 => .ok (.addVxVy (fieldX w) (fieldY w))
  | 0x5#4 => .ok (.subVxVy (fieldX w) (fieldY w))
  | 0x6#4 => .ok (.shrVxVy (fieldX w) (fieldY w))
  | 0x7#4 => .ok (.subnVxVy (fieldX w) (fieldY w))
  | 0xE#4 => .ok (.shlVxVy (fieldX w) (fieldY w))
  | _ => .error .class8

/-- Class E is selected by the low byte (30_encoding.md R74). -/
def decodeClassE (w : Word) : Except Illegal Instr :=
  match fieldKk w with
  | 0x9E#8 => .ok (.skpVx (fieldX w))
  | 0xA1#8 => .ok (.sknpVx (fieldX w))
  | _ => .error .classE

/-- Class F is selected by the low byte (30_encoding.md R74). -/
def decodeClassF (w : Word) : Except Illegal Instr :=
  match fieldKk w with
  | 0x07#8 => .ok (.ldVxDt (fieldX w))
  | 0x0A#8 => .ok (.ldVxK (fieldX w))
  | 0x15#8 => .ok (.ldDtVx (fieldX w))
  | 0x18#8 => .ok (.ldStVx (fieldX w))
  | 0x1E#8 => .ok (.addIVx (fieldX w))
  | 0x29#8 => .ok (.ldFVx (fieldX w))
  | 0x33#8 => .ok (.ldBVx (fieldX w))
  | 0x55#8 => .ok (.ldMiVx (fieldX w))
  | 0x65#8 => .ok (.ldVxMi (fieldX w))
  | _ => .error .classF

/-- The instruction of a word, or the reason it is illegal (30_encoding.md R74, R75, R78, R80). Class 0 needs the
whole word (the spec's decision D2, log entry 16). The last arm is class F, the one class left. -/
def decodeWord (w : Word) : Except Illegal Instr :=
  match fieldClass w with
  | 0x0#4 => if w = 0x00E0#16 then .ok .cls else if w = 0x00EE#16 then .ok .ret else .error .class0
  | 0x1#4 => .ok (.jp (fieldNnn w))
  | 0x2#4 => .ok (.call (fieldNnn w))
  | 0x3#4 => .ok (.seVxKk (fieldX w) (fieldKk w))
  | 0x4#4 => .ok (.sneVxKk (fieldX w) (fieldKk w))
  | 0x5#4 => if fieldN w = 0#4 then .ok (.seVxVy (fieldX w) (fieldY w)) else .error .class5
  | 0x6#4 => .ok (.ldVxKk (fieldX w) (fieldKk w))
  | 0x7#4 => .ok (.addVxKk (fieldX w) (fieldKk w))
  | 0x8#4 => decodeClass8 w
  | 0x9#4 => if fieldN w = 0#4 then .ok (.sneVxVy (fieldX w) (fieldY w)) else .error .class9
  | 0xA#4 => .ok (.ldINnn (fieldNnn w))
  | 0xB#4 => .ok (.jpV0Nnn (fieldNnn w))
  | 0xC#4 => .ok (.rndVxKk (fieldX w) (fieldKk w))
  | 0xD#4 => .ok (.drwVxVyN (fieldX w) (fieldY w) (fieldN w))
  | 0xE#4 => decodeClassE w
  | _ => decodeClassF w

/-- The word of two bytes in memory order: the byte at the lower address holds bits 15:8 (20_memory.md R57). -/
def wordOfBytes (hi lo : Byte) : Word := hi ++ lo

/-- Decoding two bytes as they lie in memory, lower address first (30_encoding.md R70). -/
def decodeBytes (hi lo : Byte) : Except Illegal Instr := decodeWord (wordOfBytes hi lo)

/-- The byte at the lower address of a stored word (20_memory.md R57). -/
def wordHigh (w : Word) : Byte := w.extractLsb' 8 8

/-- The byte at the higher address of a stored word (20_memory.md R57). -/
def wordLow (w : Word) : Byte := w.extractLsb' 0 8

/-- The first instruction word of an encoding whose bits are `w`, of which `nbits` are given and the rest are 0
(bit 0 is the least significant bit of the word, as spec/opcode_table.json numbers it). -/
def tableWord (nbits w : Nat) : Word := BitVec.ofNat 16 (w % 2 ^ nbits)

/-- The instruction the decoder reads from an opcode-table word laid out as the hardware stores it. -/
def decodeTableWord (nbits w : Nat) : Option Instr :=
  match decodeBytes (wordHigh (tableWord nbits w)) (wordLow (tableWord nbits w)) with
  | .ok i => some i
  | .error _ => none

/-- A register index as a 4-bit field (30_encoding.md R71). -/
def regBits (r : RegIdx) : BitVec 4 := BitVec.ofFin r

/-- Format NNN (30_encoding.md R72). -/
def packNnn (c : BitVec 4) (nnn : BitVec 12) : Word := c ++ nnn

/-- Format XKK; with a constant low byte also format XS (30_encoding.md R72). -/
def packXkk (c : BitVec 4) (x : RegIdx) (kk : Byte) : Word := c ++ (regBits x ++ kk)

/-- Format XYN; with a constant low nibble also format XY (30_encoding.md R72). -/
def packXyn (c : BitVec 4) (x y : RegIdx) (n : BitVec 4) : Word := c ++ (regBits x ++ (regBits y ++ n))

/-- The word of an instruction (30_encoding.md R72, R76). -/
def encode : Instr → Word
  | .cls => 0x00E0
  | .ret => 0x00EE
  | .jp nnn => packNnn 0x1 nnn
  | .call nnn => packNnn 0x2 nnn
  | .seVxKk x kk => packXkk 0x3 x kk
  | .sneVxKk x kk => packXkk 0x4 x kk
  | .seVxVy x y => packXyn 0x5 x y 0x0
  | .ldVxKk x kk => packXkk 0x6 x kk
  | .addVxKk x kk => packXkk 0x7 x kk
  | .ldVxVy x y => packXyn 0x8 x y 0x0
  | .orVxVy x y => packXyn 0x8 x y 0x1
  | .andVxVy x y => packXyn 0x8 x y 0x2
  | .xorVxVy x y => packXyn 0x8 x y 0x3
  | .addVxVy x y => packXyn 0x8 x y 0x4
  | .subVxVy x y => packXyn 0x8 x y 0x5
  | .shrVxVy x y => packXyn 0x8 x y 0x6
  | .subnVxVy x y => packXyn 0x8 x y 0x7
  | .shlVxVy x y => packXyn 0x8 x y 0xE
  | .sneVxVy x y => packXyn 0x9 x y 0x0
  | .ldINnn nnn => packNnn 0xA nnn
  | .jpV0Nnn nnn => packNnn 0xB nnn
  | .rndVxKk x kk => packXkk 0xC x kk
  | .drwVxVyN x y n => packXyn 0xD x y n
  | .skpVx x => packXkk 0xE x 0x9E
  | .sknpVx x => packXkk 0xE x 0xA1
  | .ldVxDt x => packXkk 0xF x 0x07
  | .ldVxK x => packXkk 0xF x 0x0A
  | .ldDtVx x => packXkk 0xF x 0x15
  | .ldStVx x => packXkk 0xF x 0x18
  | .addIVx x => packXkk 0xF x 0x1E
  | .ldFVx x => packXkk 0xF x 0x29
  | .ldBVx x => packXkk 0xF x 0x33
  | .ldMiVx x => packXkk 0xF x 0x55
  | .ldVxMi x => packXkk 0xF x 0x65

end Sys2Proof
end

