-- ==== Sys2Proof/Config.lean ====
section
/-! DEFINITION. The open parameters of the machine (00_scope.md R6): the two quirk flags, FONT and RNG. -/

namespace Sys2Proof

/-- The parameters that 00_scope.md R6 leaves open and that are constant for the life of the core.
`State` carries them in its field `config`, so that a claim over all states is a claim over all their values
(log entry 1). -/
structure Config where
  /-- QUIRK_SHIFT_VY: 8xy6 and 8xyE shift V[y] instead of V[x] (42_alu.md R119, R121). -/
  quirkShiftVy : Bool
  /-- QUIRK_FX1E_VF: Fx1E reports a 12-bit overflow in V[15] (43_index_memory.md R131). -/
  quirkFx1eVf : Bool
  /-- FONT: the reset content of MEM[0x000..0x04F] (20_memory.md R56). -/
  font : Vector Byte 80
  deriving DecidableEq, Repr

/-- The sprites of the digits 0 to 7 of the default font, five bytes each, top row first (20_memory.md R56).
PRESUMED: general knowledge, 93_implementation_defined.md G1 (log entry 2). -/
def Config.fontLow : List Byte :=
  [0xF0, 0x90, 0x90, 0x90, 0xF0] ++ [0x20, 0x60, 0x20, 0x20, 0x70] ++
  [0xF0, 0x10, 0xF0, 0x80, 0xF0] ++ [0xF0, 0x10, 0xF0, 0x10, 0xF0] ++
  [0x90, 0x90, 0xF0, 0x10, 0x10] ++ [0xF0, 0x80, 0xF0, 0x10, 0xF0] ++
  [0xF0, 0x80, 0xF0, 0x90, 0xF0] ++ [0xF0, 0x10, 0x20, 0x40, 0x40]

/-- The sprites of the digits 8 to F of the default font (20_memory.md R56). PRESUMED, as `fontLow`. -/
def Config.fontHigh : List Byte :=
  [0xF0, 0x90, 0xF0, 0x90, 0xF0] ++ [0xF0, 0x90, 0xF0, 0x10, 0xF0] ++
  [0xF0, 0x90, 0xF0, 0x90, 0x90] ++ [0xE0, 0x90, 0xE0, 0x90, 0xE0] ++
  [0xF0, 0x80, 0x80, 0x80, 0xF0] ++ [0xE0, 0x90, 0x90, 0x90, 0xE0] ++
  [0xF0, 0x80, 0xF0, 0x80, 0xF0] ++ [0xF0, 0x80, 0xF0, 0x80, 0x80]

/-- The default of FONT (20_memory.md R56). -/
def Config.defaultFont : Vector Byte 80 := ⟨(fontLow ++ fontHigh).toArray, rfl⟩

/-- The defaults of 00_scope.md R6: both quirks off, the font of 20_memory.md R56.
DESIGN CHOICE: the spec leaves the three open and names these defaults (log entry 1). -/
def Config.default : Config :=
  { quirkShiftVy := false, quirkFx1eVf := false, font := defaultFont }

/-- RNG: the byte that the n-th executed Cxkk draws (00_scope.md R6, R12; 10_state.md R39).
A FREE VALUE: it has no body, so nothing can be proved of any draw (log entry 3). -/
opaque Config.randomByte : Nat → Byte

end Sys2Proof
end

