-- ==== Sys2Proof/Machine/State.lean ====
section
/-! DEFINITION. The state of the core (10_state.md R20), its value after `reset`, and the ways an operation can stop. -/

namespace Sys2Proof.Machine

/-- The two operating states (10_state.md R36). -/
inductive RunState where
  | running
  | awaitingKey
  deriving DecidableEq, Repr

/-- Memory: the bytes that differ from what an unlisted address reads as, at strictly rising addresses
(20_memory.md R50; `Memory.wf` in Ops.lean says the form; log entry 9). -/
abbrev Memory := List Host.Cell

/-- The Display Buffer: 32 rows of 64 pixels, row y then column x (10_state.md R41). -/
abbrev Display := Vector (Vector Bool 64) 32

/-- The error kinds, a closed list (60_exceptions.md R160). Each is the result the spec gives, with no state change
(R11, R165), so each is safe. -/
inductive Fault where
  /-- Raised by `step` in RUNNING when the fetched word matches no row (R161). Safe: the spec's own error. -/
  | decodeError
  /-- Raised by 2nnn when SP = 16 (R162). Safe: the spec's own error. -/
  | stackOverflow
  /-- Raised by 00EE when SP = 0 (R163). Safe: the spec's own error. -/
  | stackUnderflow
  /-- Raised by `load` when the image is longer than 0xE00 bytes (R164). Safe: the spec's own error. -/
  | programTooLarge
  deriving DecidableEq, Repr

/-- Refusals of the model. Every instruction of the table has its meaning, so none is ever raised. -/
inductive Refusal where
  /-- An instruction without a meaning: no arm of `exec` raises it. Safe: it would only stop. -/
  | notModelled (mnemonic : String)
  deriving DecidableEq, Repr

/-- The complete state of the core: exactly the elements of 10_state.md R20. -/
structure CoreState where
  /-- MEM (20_memory.md R50). -/
  mem : Memory
  /-- V[0..15]; V[15] is also the flag (10_state.md R21, R24). -/
  v : Vector Byte 16
  /-- I, 16 bits stored, 12 significant (10_state.md R31). -/
  i : Word
  /-- PC (10_state.md R27). -/
  pc : Word
  /-- STK[0..15] (10_state.md R33). -/
  stk : Vector Word 16
  /-- SP, the number of live entries, 0 to 16 (10_state.md R33). -/
  sp : Fin 17
  /-- DT, the delay timer (10_state.md R34). -/
  dt : Byte
  /-- ST, the sound timer (10_state.md R34). -/
  st : Byte
  /-- FB (10_state.md R41). -/
  fb : Display
  /-- KEY[0..15], true when pressed (10_state.md R35). -/
  key : Vector Bool 16
  /-- RUN (10_state.md R36). -/
  run : RunState
  /-- WREG, the register of the key wait (10_state.md R37). -/
  wreg : RegIdx
  /-- KPEND, the pending press edge (10_state.md R38). -/
  kpend : Option KeyIdx
  deriving DecidableEq, Repr

/-- What lies outside the core's state: its parameters, constant or supplied by the environment (00_scope.md R6;
10_state.md R20, R39). The fields are the model's own (log entry 26). -/
structure Parameters where
  /-- RNG: how many random bytes were drawn, the argument of the free value `Config.randomByte` (log entry 3). -/
  draws : Nat
  /-- QUIRK_SHIFT_VY, QUIRK_FX1E_VF and FONT, which nothing changes (log entry 1). -/
  config : Config
  deriving DecidableEq, Repr

/-- What the one step function reads and answers: the core's state, and beside it the parameters, which `step` has no
other argument for (log entry 26). -/
structure State extends CoreState, Parameters where
  deriving DecidableEq, Repr

/-- The outcome of one instruction or of one `step`. -/
abbrev StepResult := Host.Outcome State Fault Refusal

/-- The display with every pixel off (10_state.md R41). -/
def Display.clear : Display := Vector.replicate 32 (Vector.replicate 64 false)

/-- The state after `reset` of a core with the parameters `c` of which `n` random bytes were drawn
(70_reset_and_hazards.md R190; zeros by the spec's decision D7, log entry 4). Memory lists nothing: an unlisted
address reads as its reset content (log entry 9). -/
def State.resetWith (c : Config) (n : Nat) : State :=
  { mem := [], v := Vector.replicate 16 0, i := 0, pc := 0x200, stk := Vector.replicate 16 0, sp := 0,
    dt := 0, st := 0, fb := Display.clear, key := Vector.replicate 16 false, run := .running, wreg := 0,
    kpend := none, draws := n, config := c }

/-- The state right after `reset`, with the default parameters of 00_scope.md R6 and no byte drawn
(70_reset_and_hazards.md R190; log entries 1, 3 and 4). -/
def State.reset : State := State.resetWith Config.default 0

end Sys2Proof.Machine
end

