-- ==== Sys2Proof/Machine/Ops.lean ====
section
/-! DEFINITION. The shared operations over memory, registers, the stack, the display and the key wait. -/

namespace Sys2Proof.Machine

/-! ### Errors -/

/-- `raise E`: the operation ends with the error and changes nothing (00_scope.md R11, 60_exceptions.md R165). This
is the whole of error entry: nothing is saved, no mode changes, PC stays; there is no return (R166; log entry 17). -/
def raise (e : Fault) : StepResult := .fault e

/-! ### Memory -/

/-- What an address that memory does not list reads as: its content after `reset`, FONT in 0x000..0x04F and 0x00
above (20_memory.md R52, R55; log entries 8 and 9). -/
def Memory.unlisted (font : Vector Byte 80) (a : Nat) : Byte :=
  if h : a < 80 then font[a] else 0

/-- The byte listed at an address. -/
def Memory.lookup : Memory → Nat → Option Byte
  | [], _ => none
  | c :: rest, a => if c.1 = a then some c.2 else Memory.lookup rest a

/-- List a byte at an address, in the address order. -/
def Memory.insert (a : Nat) (b : Byte) : Memory → Memory
  | [] => [(a, b)]
  | c :: rest =>
    if a < c.1 then (a, b) :: c :: rest
    else if a = c.1 then (a, b) :: rest
    else c :: Memory.insert a b rest

/-- Unlist an address. -/
def Memory.erase (a : Nat) : Memory → Memory
  | [] => []
  | c :: rest => if c.1 = a then Memory.erase a rest else c :: Memory.erase a rest

/-- The canonical form: addresses below 0x1000 and strictly rising, no entry equal to what its address reads as
unlisted. Equal memories are then equal lists. -/
abbrev Memory.wf (font : Vector Byte 80) (m : Memory) : Prop :=
  m.Pairwise (fun c d => c.1 < d.1) ∧ ∀ c ∈ m, c.1 < 0x1000 ∧ c.2 ≠ Memory.unlisted font c.1

/-- The wrap of every address before access (20_memory.md R51). -/
def wrapAddr (addr : Nat) : Nat := addr % 0x1000

/-- MEM[addr mod 0x1000] (00_scope.md R10). -/
def Memory.read (font : Vector Byte 80) (m : Memory) (addr : Nat) : Byte :=
  (Memory.lookup m (wrapAddr addr)).getD (Memory.unlisted font (wrapAddr addr))

/-- MEM[addr mod 0x1000] <- b, in any region; the canonical form is kept. `load` and `withFetchWord` write with it,
instructions only through `Memory.store` (70_reset_and_hazards.md R190, R193). -/
def Memory.poke (font : Vector Byte 80) (m : Memory) (addr : Nat) (b : Byte) : Memory :=
  if b = Memory.unlisted font (wrapAddr addr) then Memory.erase (wrapAddr addr) m
  else Memory.insert (wrapAddr addr) b m

/-- The font region, 0x000..0x04F (00_scope.md R5; 20_memory.md R52). -/
def inFontRegion (addr : Nat) : Bool := decide (wrapAddr addr ≤ 0x04F)

/-- `MemWrite(addr, 1, b)`: a store into the font region is dropped (00_scope.md R10; 20_memory.md R54; the spec's
decision D5, log entry 7). -/
def Memory.store (font : Vector Byte 80) (m : Memory) (addr : Nat) (b : Byte) : Memory :=
  if inFontRegion addr then m else Memory.poke font m addr b

/-- Bytes at ascending addresses from `addr` (`load`, 70_reset_and_hazards.md R193). -/
def Memory.pokeList (font : Vector Byte 80) : Memory → Nat → List Byte → Memory
  | m, _, [] => m
  | m, addr, b :: bs => Memory.pokeList font (Memory.poke font m addr b) (addr + 1) bs

/-- `MemRead(addr, 1)` (00_scope.md R10). -/
def memRead (s : State) (addr : Nat) : Byte := Memory.read s.config.font s.mem addr

/-- `MemRead(PC, 2)`, the fetched word, high byte first, each address wrapped on its own (00_scope.md R10;
40_step_dispatch.md R92, R94). -/
def fetchWord (s : State) : Word := wordOfBytes (memRead s s.pc.toNat) (memRead s (s.pc.toNat + 1))

/-- A word stored where the next `step` fetches it, high byte first, and RUN = RUNNING (log entry 19). -/
def pokeFetch (s : State) (w : Word) : State :=
  { s with
    mem := Memory.poke s.config.font (Memory.poke s.config.font s.mem s.pc.toNat (wordHigh w)) (s.pc.toNat + 1) (wordLow w)
    run := .running }

/-! ### Single writes -/

/-- V[x] (10_state.md R21). -/
def State.reg (s : State) (x : RegIdx) : Byte := s.v[x.val]

/-- V[x] <- b. -/
def State.setReg (s : State) (x : RegIdx) (b : Byte) : State := { s with v := s.v.set x.val b x.isLt }

/-- All of V <- v (Fx65). -/
def State.setRegs (s : State) (v : Vector Byte 16) : State := { s with v := v }

/-- PC <- a. -/
def State.setPc (s : State) (a : Word) : State := { s with pc := a }

/-- I <- a. -/
def State.setIndex (s : State) (a : Word) : State := { s with i := a }

/-- DT <- b. -/
def State.setDt (s : State) (b : Byte) : State := { s with dt := b }

/-- ST <- b. -/
def State.setSt (s : State) (b : Byte) : State := { s with st := b }

/-- MEM <- m. -/
def State.setMem (s : State) (m : Memory) : State := { s with mem := m }

/-- FB <- d. -/
def State.setFb (s : State) (d : Display) : State := { s with fb := d }

/-- STK, SP <- stk, sp. -/
def State.setStack (s : State) (stk : Vector Word 16) (sp : Fin 17) : State := { s with stk := stk, sp := sp }

/-- KEY[k] <- b. -/
def State.setKey (s : State) (k : KeyIdx) (b : Bool) : State := { s with key := s.key.set k.val b k.isLt }

/-- RUN, KPEND <- r, p. -/
def State.setRun (s : State) (r : RunState) (p : Option KeyIdx) : State := { s with run := r, kpend := p }

/-- WREG <- x. -/
def State.setWreg (s : State) (x : RegIdx) : State := { s with wreg := x }

/-- KPEND <- p. -/
def State.setKpend (s : State) (p : Option KeyIdx) : State := { s with kpend := p }

/-- One random byte was drawn (00_scope.md R12; log entry 3). -/
def State.bumpDraws (s : State) : State := { s with draws := s.draws + 1 }

/-! ### Ends of instructions -/

/-- PC <- (A + 2) mod 0x10000 (10_state.md R28, R29; the spec's decision D4, log entry 5). -/
def State.advance (s : State) : State := s.setPc (s.pc + 2)

/-- PC <- A + 4 if the skip is taken, else A + 2, modulo 0x10000 (10_state.md R28, R29). -/
def State.skipIf (s : State) (taken : Bool) : State := s.setPc (if taken then s.pc + 4 else s.pc + 2)

/-- V[x] <- b, then V[15] <- f: the flag is written last and wins (10_state.md R25; 42_alu.md R110). -/
def State.writeFlagged (s : State) (x : RegIdx) (b f : Byte) : State := (s.setReg x b).setReg 15 f

/-! ### The Call Stack (10_state.md R33) -/

/-- Push, legal only when SP < 16; `none` when full. -/
def State.push (s : State) (a : Word) : Option State :=
  if h : s.sp.val < 16 then
    some (s.setStack (s.stk.set s.sp.val a h) ⟨s.sp.val + 1, by omega⟩)
  else none

/-- Pop, legal only when SP > 0; `none` when empty. The slot keeps its content (log entry 21). -/
def State.pop (s : State) : Option (Word × State) :=
  if h : 0 < s.sp.val then
    some (s.stk[s.sp.val - 1]'(by have := s.sp.isLt; omega), s.setStack s.stk ⟨s.sp.val - 1, by have := s.sp.isLt; omega⟩)
  else none

/-! ### Register ranges (43_index_memory.md R134, R135) -/

/-- Memory after `for i in 0 .. k-1: MemWrite(I + i, 1, V[i])`. -/
def storeRegs (s : State) : Nat → Memory
  | 0 => s.mem
  | k + 1 => Memory.store s.config.font (storeRegs s k) (s.i.toNat + k) (s.reg (Fin.ofNat 16 k))

/-- V after `for i in 0 .. k-1: V[i] <- MemRead(I + i, 1)`. -/
def loadRegs (s : State) : Nat → Vector Byte 16
  | 0 => s.v
  | k + 1 => (loadRegs s k).set (Fin.ofNat 16 k).val (memRead s (s.i.toNat + k)) (Fin.ofNat 16 k).isLt

/-! ### The display (44_display.md R140) -/

/-- FB[x, y] (10_state.md R41). -/
def Display.pixel (d : Display) (x : Fin 64) (y : Fin 32) : Bool := (d[y.val])[x.val]

/-- FB[x, y] <- FB[x, y] xor 1. -/
def Display.flip (d : Display) (x : Fin 64) (y : Fin 32) : Display :=
  d.set y.val ((d[y.val]).set x.val (!(d.pixel x y)) x.isLt) y.isLt

/-- One sprite bit over one pixel: a 1 inverts the pixel and reports a collision if it was set, a 0 leaves it. The
pair is the display and the collision so far. -/
def blitPixel (on : Bool) (x : Fin 64) (y : Fin 32) (d : Display × Bool) : Display × Bool :=
  if on then (d.1.flip x y, d.2 || d.1.pixel x y) else d

/-- Column c of a sprite row is bit 7 - c of its byte. PRESUMED: general knowledge, the spec's decision D11
(44_display.md R140; log entry 11). -/
def spriteBit (b : Byte) (c : Nat) : Bool := b.getLsbD (7 - c)

/-- The columns 0 to k - 1 of one sprite row, from column vx of display row y, wrapping modulo 64. -/
def blitRow (b : Byte) (vx : Nat) (y : Fin 32) (d : Display × Bool) : Nat → Display × Bool
  | 0 => d
  | c + 1 => blitPixel (spriteBit b c) (Fin.ofNat 64 (vx + c)) y (blitRow b vx y d c)

/-- The rows 0 to k - 1 of the sprite at I, from row vy, wrapping modulo 32 (44_display.md R142). -/
def blitSprite (s : State) (vx vy : Nat) : Nat → Display × Bool
  | 0 => (s.fb, false)
  | r + 1 => blitRow (memRead s (s.i.toNat + r)) vx (Fin.ofNat 32 (vy + r)) (blitSprite s vx vy r) 8

/-! ### The key wait (10_state.md R36 to R38; the spec's decision D15, log entry 13) -/

/-- Entering the wait: RUN, WREG and KPEND are written and PC is not (45_timer_keypad.md R155). -/
def State.enterWait (s : State) (x : RegIdx) : State := (s.setWreg x).setRun .awaitingKey none

/-- `step` while RUN = AWAITING_KEY: nothing changes until a press edge is pending; then V[WREG] takes the key index,
PC advances and the core runs again, executing nothing else (40_step_dispatch.md R91). -/
def pollKey (s : State) : State :=
  match s.kpend with
  | none => s
  | some k => ((s.setReg s.wreg (BitVec.ofNat 8 k.val)).advance).setRun .running none

/-! ### Reading an outcome (used by tests and statements) -/

/-- The next state of an outcome, if it is one. -/
def nextState : StepResult → Option State
  | .next t => some t
  | .fault _ => none
  | .refused _ => none

/-- The fault of an outcome, if it is one. -/
def faultOf : StepResult → Option Fault
  | .next _ => none
  | .fault f => some f
  | .refused _ => none

end Sys2Proof.Machine
end

