-- ==== Sys2Proof/Machine/Operands.lean ====
section
/-! DEFINITION. Operand forms: immediates, the shift source, the low nibble of a register, the font address, digits. -/

namespace Sys2Proof.Machine

/-- A 12-bit immediate as a 16-bit value, zero-extended (30_encoding.md R73). -/
def immAddr (nnn : BitVec 12) : Word := nnn.zeroExtend 16

/-- A byte register as a 16-bit value, zero-extended (00_scope.md R8). -/
def regWord (b : Byte) : Word := b.zeroExtend 16

/-- The effective address I + offset, before the wrap (43_index_memory.md, its opening paragraph; 00_scope.md R10). -/
def indexAddr (s : State) (offset : Nat) : Nat := s.i.toNat + offset

/-- The shift source of 8xy6 and 8xyE: V[y] if QUIRK_SHIFT_VY, else V[x] (42_alu.md R119, R121). -/
def shiftSource (s : State) (x y : RegIdx) : Byte := if s.config.quirkShiftVy then s.reg y else s.reg x

/-- `V[x][3:0]` as a key or digit index (45_timer_keypad.md R153, R154; 43_index_memory.md R132; the spec's decisions
D13 and D14, log entry 14). -/
def lowNibble (b : Byte) : Fin 16 := (b.extractLsb' 0 4).toFin

/-- The address of the sprite of digit d, FONT_BASE + 5 * d (43_index_memory.md R132; 20_memory.md R56). -/
def fontAddr (d : Fin 16) : Word := BitVec.ofNat 16 (5 * d.val)

/-- KEY[k] (10_state.md R35). -/
def State.pressed (s : State) (k : KeyIdx) : Bool := s.key[k.val]

/-- The hundreds digit of a byte (43_index_memory.md R133). -/
def hundreds (b : Byte) : Byte := BitVec.ofNat 8 (b.toNat / 100)

/-- The tens digit of a byte (43_index_memory.md R133). -/
def tens (b : Byte) : Byte := BitVec.ofNat 8 (b.toNat / 10 % 10)

/-- The units digit of a byte (43_index_memory.md R133). -/
def units (b : Byte) : Byte := BitVec.ofNat 8 (b.toNat % 10)

end Sys2Proof.Machine
end

