-- ==== Sys2Proof/Machine/Flags.lean ====
section
/-! DEFINITION. The values written to V[15] as a flag (10_state.md R24): always 0x00 or 0x01. -/

namespace Sys2Proof.Machine

/-- A flag as a full byte, 0x00 or 0x01 (10_state.md R24). -/
def flagByte (b : Bool) : Byte := if b then 1 else 0

/-- Carry of an addition: 1 when the sum exceeds 255 (42_alu.md R110, R117). -/
def carryFlag (a b : Byte) : Byte := flagByte (decide (255 < a.toNat + b.toNat))

/-- No borrow of a - b: 1 when a >= b (42_alu.md R110, R118, R120). -/
def noBorrowFlag (a b : Byte) : Byte := flagByte (decide (b.toNat ≤ a.toNat))

/-- The bit that a right shift drops, bit 0 (42_alu.md R119). -/
def lowBitFlag (b : Byte) : Byte := flagByte (b.getLsbD 0)

/-- The bit that a left shift drops, bit 7 (42_alu.md R121). -/
def highBitFlag (b : Byte) : Byte := flagByte (b.getLsbD 7)

/-- The 12-bit overflow of Fx1E: (I mod 0x1000) + V[x] > 0xFFF (43_index_memory.md R131; the spec's decision D18,
log entry 1). -/
def indexOverflowFlag (i : Word) (b : Byte) : Byte := flagByte (decide (0xFFF < i.toNat % 0x1000 + b.toNat))

end Sys2Proof.Machine
end

