-- ==== Sys2Proof/Machine/Alu.lean ====
section
/-! DEFINITION. Register arithmetic, logic, shifts and random (42_alu.md). Operands are read before any write. -/

namespace Sys2Proof.Machine

/-- 6xkk: V[x] <- kk (42_alu.md R111). -/
def execLdVxKk (x : RegIdx) (kk : Byte) (s : State) : StepResult := .next (s.setReg x kk).advance

/-- 7xkk: V[x] <- V[x] + kk mod 256, no flag (42_alu.md R112). -/
def execAddVxKk (x : RegIdx) (kk : Byte) (s : State) : StepResult := .next (s.setReg x (s.reg x + kk)).advance

/-- 8xy0: V[x] <- V[y] (42_alu.md R113). -/
def execLdVxVy (x y : RegIdx) (s : State) : StepResult := .next (s.setReg x (s.reg y)).advance

/-- 8xy1: V[x] <- V[x] or V[y], no flag (42_alu.md R114). -/
def execOrVxVy (x y : RegIdx) (s : State) : StepResult := .next (s.setReg x (s.reg x ||| s.reg y)).advance

/-- 8xy2: V[x] <- V[x] and V[y], no flag (42_alu.md R115). -/
def execAndVxVy (x y : RegIdx) (s : State) : StepResult := .next (s.setReg x (s.reg x &&& s.reg y)).advance

/-- 8xy3: V[x] <- V[x] xor V[y], no flag (42_alu.md R116). -/
def execXorVxVy (x y : RegIdx) (s : State) : StepResult := .next (s.setReg x (s.reg x ^^^ s.reg y)).advance

/-- 8xy4: V[x] <- sum mod 256, then V[15] <- carry (42_alu.md R117; 10_state.md R25). -/
def execAddVxVy (x y : RegIdx) (s : State) : StepResult :=
  .next (s.writeFlagged x (s.reg x + s.reg y) (carryFlag (s.reg x) (s.reg y))).advance

/-- 8xy5: V[x] <- V[x] - V[y] mod 256, then V[15] <- no borrow (42_alu.md R118; 10_state.md R25). -/
def execSubVxVy (x y : RegIdx) (s : State) : StepResult :=
  .next (s.writeFlagged x (s.reg x - s.reg y) (noBorrowFlag (s.reg x) (s.reg y))).advance

/-- 8xy6: V[x] <- source >> 1, then V[15] <- bit 0 of the source (42_alu.md R119; 10_state.md R25). -/
def execShrVxVy (x y : RegIdx) (s : State) : StepResult :=
  .next (s.writeFlagged x (shiftSource s x y >>> 1) (lowBitFlag (shiftSource s x y))).advance

/-- 8xy7: V[x] <- V[y] - V[x] mod 256, then V[15] <- no borrow (42_alu.md R120; 10_state.md R25). -/
def execSubnVxVy (x y : RegIdx) (s : State) : StepResult :=
  .next (s.writeFlagged x (s.reg y - s.reg x) (noBorrowFlag (s.reg y) (s.reg x))).advance

/-- 8xyE: V[x] <- source << 1 mod 256, then V[15] <- bit 7 of the source (42_alu.md R121; 10_state.md R25). -/
def execShlVxVy (x y : RegIdx) (s : State) : StepResult :=
  .next (s.writeFlagged x (shiftSource s x y <<< 1) (highBitFlag (shiftSource s x y))).advance

/-- Cxkk: V[x] <- one random byte and kk; exactly one byte is drawn (42_alu.md R122; 10_state.md R39; the byte is a
free value, log entry 3). -/
def execRndVxKk (x : RegIdx) (kk : Byte) (s : State) : StepResult :=
  .next ((s.setReg x (Config.randomByte s.draws &&& kk)).bumpDraws).advance

end Sys2Proof.Machine
end

