-- ==== Sys2Proof/Machine/Draw.lean ====
section
/-! DEFINITION. Display instructions: clear and sprite blit (44_display.md). -/

namespace Sys2Proof.Machine

/-- 00E0: every pixel off, V[15] not written (44_display.md R141). -/
def execCls (s : State) : StepResult := .next (s.setFb Display.clear).advance

/-- Dxyn: XOR n sprite rows from I at (V[x], V[y]), then V[15] <- collision. V[x], V[y] and I are read before any
write (44_display.md R142; the spec's decision D12, log entry 12). -/
def execDrwVxVyN (x y : RegIdx) (n : BitVec 4) (s : State) : StepResult :=
  let drawn := blitSprite s (s.reg x).toNat (s.reg y).toNat n.toNat
  .next ((s.setFb drawn.1).setReg 15 (flagByte drawn.2)).advance

end Sys2Proof.Machine
end

