-- ==== Sys2Proof/Machine/Flow.lean ====
section
/-! DEFINITION. Control transfer: jumps, call, return, conditional skips (41_flow_stack.md). -/

namespace Sys2Proof.Machine

/-- 1nnn: PC <- nnn (41_flow_stack.md R100). -/
def execJp (nnn : BitVec 12) (s : State) : StepResult := .next (s.setPc (immAddr nnn))

/-- 2nnn: push A, the address of the CALL itself, then PC <- nnn; StackOverflow when SP = 16 (41_flow_stack.md R101;
90_conflicts.md C2; the spec's decision D3, log entry 6). -/
def execCall (nnn : BitVec 12) (s : State) : StepResult :=
  match s.push s.pc with
  | none => raise .stackOverflow
  | some t => .next (t.setPc (immAddr nnn))

/-- 00EE: pop, then PC <- popped + 2; StackUnderflow when SP = 0 (41_flow_stack.md R102). -/
def execRet (s : State) : StepResult :=
  match s.pop with
  | none => raise .stackUnderflow
  | some (a, t) => .next (t.setPc (a + 2))

/-- 3xkk: skip if V[x] = kk (41_flow_stack.md R103). -/
def execSeVxKk (x : RegIdx) (kk : Byte) (s : State) : StepResult := .next (s.skipIf (s.reg x == kk))

/-- 4xkk: skip if V[x] ≠ kk (41_flow_stack.md R104). -/
def execSneVxKk (x : RegIdx) (kk : Byte) (s : State) : StepResult := .next (s.skipIf (s.reg x != kk))

/-- 5xy0: skip if V[x] = V[y] (41_flow_stack.md R105). -/
def execSeVxVy (x y : RegIdx) (s : State) : StepResult := .next (s.skipIf (s.reg x == s.reg y))

/-- 9xy0: skip if V[x] ≠ V[y] (41_flow_stack.md R106). -/
def execSneVxVy (x y : RegIdx) (s : State) : StepResult := .next (s.skipIf (s.reg x != s.reg y))

/-- Bnnn: PC <- nnn + V[0], stored unmasked (41_flow_stack.md R107; the spec's decision D4, log entry 5). -/
def execJpV0Nnn (nnn : BitVec 12) (s : State) : StepResult := .next (s.setPc (immAddr nnn + regWord (s.reg 0)))

end Sys2Proof.Machine
end

