-- ==== Sys2Proof/Machine/Index.lean ====
section
/-! DEFINITION. Index register and memory instructions (43_index_memory.md). No load or store changes I. -/

namespace Sys2Proof.Machine

/-- Annn: I <- nnn (43_index_memory.md R130). -/
def execLdINnn (nnn : BitVec 12) (s : State) : StepResult := .next (s.setIndex (immAddr nnn)).advance

/-- Fx1E: I <- I + V[x] mod 0x10000; with QUIRK_FX1E_VF, then V[15] <- the 12-bit overflow (43_index_memory.md R131). -/
def execAddIVx (x : RegIdx) (s : State) : StepResult :=
  let t := s.setIndex (s.i + regWord (s.reg x))
  .next (if s.config.quirkFx1eVf then t.setReg 15 (indexOverflowFlag s.i (s.reg x)) else t).advance

/-- Fx29: I <- 5 * V[x][3:0] (43_index_memory.md R132; the spec's decision D13, log entry 14). -/
def execLdFVx (x : RegIdx) (s : State) : StepResult := .next (s.setIndex (fontAddr (lowNibble (s.reg x)))).advance

/-- Memory after the three stores of Fx33 (43_index_memory.md R133). -/
def storeDigits (s : State) (b : Byte) : Memory :=
  let m0 := Memory.store s.config.font s.mem (indexAddr s 0) (hundreds b)
  let m1 := Memory.store s.config.font m0 (indexAddr s 1) (tens b)
  Memory.store s.config.font m1 (indexAddr s 2) (units b)

/-- Fx33: the decimal digits of V[x] to I, I + 1, I + 2 (43_index_memory.md R133). -/
def execLdBVx (x : RegIdx) (s : State) : StepResult := .next (s.setMem (storeDigits s (s.reg x))).advance

/-- Fx55: V[0..x] to memory from I (43_index_memory.md R134). -/
def execLdMiVx (x : RegIdx) (s : State) : StepResult := .next (s.setMem (storeRegs s (x.val + 1))).advance

/-- Fx65: memory from I to V[0..x] (43_index_memory.md R135). -/
def execLdVxMi (x : RegIdx) (s : State) : StepResult := .next (s.setRegs (loadRegs s (x.val + 1))).advance

end Sys2Proof.Machine
end

