-- ==== Sys2Proof/Machine/TimerKey.lean ====
section
/-! DEFINITION. Timer and keypad instructions (45_timer_keypad.md). -/

namespace Sys2Proof.Machine

/-- Fx07: V[x] <- DT (45_timer_keypad.md R150). -/
def execLdVxDt (x : RegIdx) (s : State) : StepResult := .next (s.setReg x s.dt).advance

/-- Fx15: DT <- V[x] (45_timer_keypad.md R151). -/
def execLdDtVx (x : RegIdx) (s : State) : StepResult := .next (s.setDt (s.reg x)).advance

/-- Fx18: ST <- V[x] (45_timer_keypad.md R152). -/
def execLdStVx (x : RegIdx) (s : State) : StepResult := .next (s.setSt (s.reg x)).advance

/-- Ex9E: skip if the key V[x][3:0] is down (45_timer_keypad.md R153; the spec's decision D14, log entry 14). -/
def execSkpVx (x : RegIdx) (s : State) : StepResult := .next (s.skipIf (s.pressed (lowNibble (s.reg x))))

/-- ExA1: skip if the key V[x][3:0] is up (45_timer_keypad.md R154; the spec's decision D14, log entry 14). -/
def execSknpVx (x : RegIdx) (s : State) : StepResult := .next (s.skipIf (!s.pressed (lowNibble (s.reg x))))

/-- Fx0A: enter the key wait for V[x]; PC stays (45_timer_keypad.md R155). -/
def execLdVxK (x : RegIdx) (s : State) : StepResult := .next (s.enterWait x)

end Sys2Proof.Machine
end

