-- ==== Sys2Proof/Machine/Step.lean ====
section
/-! DEFINITION. The host operation `step` (40_step_dispatch.md), and placing an instruction where it is fetched. -/

namespace Sys2Proof.Machine

/-- `step` while RUN = RUNNING: fetch, decode, run the handler; an illegal word raises DecodeError
(40_step_dispatch.md R92). -/
def stepRunning (s : State) : StepResult :=
  match decodeWord (fetchWord s) with
  | .error _ => raise .decodeError
  | .ok i => exec i s

/-- `step` (40_step_dispatch.md R90): rule R91 while AWAITING_KEY, rule R92 while RUNNING. -/
def step (s : State) : Host.Outcome State Fault Refusal :=
  match s.run with
  | .awaitingKey => .next (pollKey s)
  | .running => stepRunning s

/-- The state with an instruction word stored at the two addresses `step` fetches from, and RUNNING, without which
`step` fetches nothing (log entry 19). -/
def State.withFetchWord (s : State) (nbits w : Nat) : State :=
  pokeFetch s (tableWord nbits w)

end Sys2Proof.Machine
end

