-- ==== Sys2Proof/Machine/HostOps.lean ====
section
/-! DEFINITION. The host operations other than `step`, and the outputs (60_exceptions.md, 70_reset_and_hazards.md). -/

namespace Sys2Proof.Machine

/-- `reset`: every element of the state at its reset value (70_reset_and_hazards.md R190). The parameters stay, and
the random source, which is outside the core, is not rewound (10_state.md R39; log entry 3). -/
def hostReset (s : State) : State := State.resetWith s.config s.draws

/-- `load`: the image to 0x200 and up, every other element but memory at its reset value; an image over 0xE00 bytes
raises ProgramTooLarge and changes nothing (70_reset_and_hazards.md R193, R194; the spec's decisions D8 and D9, log
entry 10). -/
def hostLoad (image : List Byte) (s : State) : StepResult :=
  if imageFits image then
    .next ((hostReset s).setMem (Memory.pokeList s.config.font s.mem 0x200 image))
  else raise .programTooLarge

/-- A counter one lower, saturating at 0 (60_exceptions.md R171; 10_state.md R34). -/
def tickDown (b : Byte) : Byte := if b = 0 then 0 else b - 1

/-- `tick`: each timer counts down on its own, in RUNNING and in AWAITING_KEY alike (60_exceptions.md R171; the spec's
decision D17, log entry 15). -/
def hostTick (s : State) : State := (s.setDt (tickDown s.dt)).setSt (tickDown s.st)

/-- A key_down(k) is a press edge that the key wait takes: KEY[k] was up, the core awaits a key, and no edge is
pending yet (60_exceptions.md R172; the spec's decision D15, log entry 13). -/
def edgeTaken (k : KeyIdx) (s : State) : Bool :=
  !s.pressed k && (s.run == .awaitingKey) && s.kpend.isNone

/-- `key_down(k)` (60_exceptions.md R172). -/
def hostKeyDown (k : KeyIdx) (s : State) : State :=
  (s.setKey k true).setKpend (if edgeTaken k s then some k else s.kpend)

/-- `key_up(k)`; it never changes KPEND (60_exceptions.md R173; the spec's decision D16, log entry 13). -/
def hostKeyUp (k : KeyIdx) (s : State) : State := s.setKey k false

/-- The output `display`: 2048 pixels, row-major, pixel (x, y) at y * 64 + x (60_exceptions.md R176; 10_state.md R41). -/
def displayOut (s : State) : List Bool := s.fb.toList.flatMap (fun row => row.toList)

/-- The output `sound`: ST > 0 (60_exceptions.md R177). -/
def soundOut (s : State) : Bool := decide (0 < s.st.toNat)

end Sys2Proof.Machine
end

