-- ==== Sys2Proof/Machine/Interface.lean ====
section
/-! DEFINITION. The core's whole interface as a labelled transition system (60_exceptions.md R170). -/

namespace Sys2Proof.Machine

/-- The six host operations (60_exceptions.md R170). -/
inductive HostOp where
  | reset
  | load (image : List Byte)
  | step
  | tick
  | keyDown (k : KeyIdx)
  | keyUp (k : KeyIdx)
  deriving DecidableEq, Repr

/-- The result of a host operation (60_exceptions.md R160, R170). -/
inductive HostResult where
  /-- OK. -/
  | ok
  /-- One of the four error kinds. -/
  | error (f : Fault)
  /-- A refusal of the model: never the result of any operation, since every instruction has its meaning. -/
  | refused (r : Refusal)
  deriving DecidableEq, Repr

/-- The numbers of the error kinds (60_exceptions.md R160; the spec's decision D20, log entry 17). -/
def faultCode : Fault → Nat
  | .decodeError => 1
  | .stackOverflow => 2
  | .stackUnderflow => 3
  | .programTooLarge => 4

/-- An outcome as the host sees it: the state after the operation and its result. An error leaves the state as it was
(60_exceptions.md R165; 40_step_dispatch.md R96). -/
def afterOutcome (s : State) : StepResult → State × HostResult
  | .next t => (t, .ok)
  | .fault f => (s, .error f)
  | .refused r => (s, .refused r)

/-- One host operation (60_exceptions.md R170). -/
def perform : HostOp → State → State × HostResult
  | .reset, s => (hostReset s, .ok)
  | .load image, s => afterOutcome s (hostLoad image s)
  | .step, s => afterOutcome s (step s)
  | .tick, s => (hostTick s, .ok)
  | .keyDown k, s => (hostKeyDown k s, .ok)
  | .keyUp k, s => (hostKeyUp k s, .ok)

/-- The state after a sequence of host operations, whatever their results. -/
def performAll : List HostOp → State → State
  | [], s => s
  | op :: ops, s => performAll ops (perform op s).1

end Sys2Proof.Machine
end

