-- ==== Sys2Proof/Safety.lean ====
section
/-! DEFINITION. The terms claims are stated in: frames, the invariant, reachable states, a safe run, a finished run. -/

namespace Sys2Proof.Machine

/-- The parts of the state, other than V and PC, that an operation may be said to change. -/
inductive Part where
  | index
  | memory
  | stack
  | delayTimer
  | soundTimer
  | display
  | keys
  | keyWait
  | draws
  deriving DecidableEq, Repr

/-- The frame: `t` agrees with `s` on every register outside `xs`, on every part outside `parts` (memory: every byte
reads as before) and on the parameters. It says nothing of PC (00_scope.md R13: an instruction leaves every element
that its rule does not write unchanged). -/
def SameBut (parts : List Part) (xs : List RegIdx) (s t : State) : Prop :=
  (∀ r, r ∉ xs → t.reg r = s.reg r) ∧
  (.index ∉ parts → t.i = s.i) ∧
  (.memory ∉ parts → ∀ a, memRead t a = memRead s a) ∧
  (.stack ∉ parts → t.stk = s.stk ∧ t.sp = s.sp) ∧
  (.delayTimer ∉ parts → t.dt = s.dt) ∧
  (.soundTimer ∉ parts → t.st = s.st) ∧
  (.display ∉ parts → t.fb = s.fb) ∧
  (.keys ∉ parts → t.key = s.key) ∧
  (.keyWait ∉ parts → t.run = s.run ∧ t.wreg = s.wreg ∧ t.kpend = s.kpend) ∧
  (.draws ∉ parts → t.draws = s.draws) ∧
  t.config = s.config

/-- PC <- A + n, where the sum fits in 16 bits. What happens above is the spec's decision D4, stated on its own. -/
def PcPlus (n : Nat) (s t : State) : Prop := s.pc.toNat + n < 0x10000 → t.pc.toNat = s.pc.toNat + n

/-- The registers V[0] to V[x]. -/
def regsUpTo (x : RegIdx) : List RegIdx := (List.finRange 16).filter (fun r => r ≤ x)

/-- The sprite of Dxyn has a 1 bit over the pixel (px, py): some row r < n and column c < 8 with the pixel's wrapped
coordinates have bit 7 - c of the byte at I + r set (44_display.md R140, R142). -/
def SpriteCovers (s : State) (x y : RegIdx) (n : BitVec 4) (px : Fin 64) (py : Fin 32) : Prop :=
  ∃ r < n.toNat, ∃ c < 8, px.val = ((s.reg x).toNat + c) % 64 ∧ py.val = ((s.reg y).toNat + r) % 32 ∧
    (memRead s (s.i.toNat + r)).getLsbD (7 - c) = true

/-- The font region reads as FONT (20_memory.md R52: "never overwritten by the running program"). -/
def FontIntact (s : State) : Prop := ∀ a : Fin 80, memRead s a.val = s.config.font[a.val]

/-- What every operation keeps: memory is in its canonical form, the font region reads as FONT, and a press edge is
pending only in the key wait (10_state.md R38). -/
def Inv (s : State) : Prop :=
  Memory.wf s.config.font s.mem ∧ FontIntact s ∧ (s.run = .running → s.kpend = none)

/-- The states some sequence of host operations leads to from the state after `reset` of a core with some parameters
(60_exceptions.md R170). -/
inductive Reachable : State → Prop where
  | start (c : Config) (n : Nat) : Reachable (State.resetWith c n)
  | after (s : State) (op : HostOp) : Reachable s → Reachable (perform op s).1

/-- A safe run: from `s`, `k` steps in a row end in no error (60_exceptions.md R160). -/
def SafeFor (k : Nat) (s : State) : Prop := ∃ t, core.run k s = .next t

/-- The end of a run that 70_reset_and_hazards.md R201 suggests: RUNNING, and PC addresses a jump to itself. -/
def Finished (s : State) : Prop :=
  s.run = .running ∧ ∃ nnn, decodeWord (fetchWord s) = .ok (.jp nnn) ∧ nnn.toNat = s.pc.toNat

end Sys2Proof.Machine

namespace Sys2Proof

/-- The instructions that end with PC <- A + 2: all but the jumps, CALL, RET, the skips and the key wait
(10_state.md R28). -/
def Instr.sequential : Instr → Bool
  | .jp _ => false
  | .call _ => false
  | .ret => false
  | .jpV0Nnn _ => false
  | .seVxKk _ _ => false
  | .sneVxKk _ _ => false
  | .seVxVy _ _ => false
  | .sneVxVy _ _ => false
  | .skpVx _ => false
  | .sknpVx _ => false
  | .ldVxK _ => false
  | .cls => true
  | .ldVxKk _ _ => true
  | .addVxKk _ _ => true
  | .ldVxVy _ _ => true
  | .orVxVy _ _ => true
  | .andVxVy _ _ => true
  | .xorVxVy _ _ => true
  | .addVxVy _ _ => true
  | .subVxVy _ _ => true
  | .shrVxVy _ _ => true
  | .subnVxVy _ _ => true
  | .shlVxVy _ _ => true
  | .ldINnn _ => true
  | .rndVxKk _ _ => true
  | .drwVxVyN _ _ _ => true
  | .ldVxDt _ => true
  | .ldDtVx _ => true
  | .ldStVx _ => true
  | .addIVx _ => true
  | .ldFVx _ => true
  | .ldBVx _ => true
  | .ldMiVx _ => true
  | .ldVxMi _ => true

/-- The registers an instruction writes as its destination (42_alu.md R110; 10_state.md R22), flags apart. -/
def Instr.destinations : Instr → List RegIdx
  | .ldVxKk x _ => [x]
  | .addVxKk x _ => [x]
  | .ldVxVy x _ => [x]
  | .orVxVy x _ => [x]
  | .andVxVy x _ => [x]
  | .xorVxVy x _ => [x]
  | .addVxVy x _ => [x]
  | .subVxVy x _ => [x]
  | .shrVxVy x _ => [x]
  | .subnVxVy x _ => [x]
  | .shlVxVy x _ => [x]
  | .rndVxKk x _ => [x]
  | .ldVxDt x => [x]
  | .ldVxMi x => Machine.regsUpTo x
  | .cls => []
  | .ret => []
  | .jp _ => []
  | .call _ => []
  | .seVxKk _ _ => []
  | .sneVxKk _ _ => []
  | .seVxVy _ _ => []
  | .sneVxVy _ _ => []
  | .ldINnn _ => []
  | .jpV0Nnn _ => []
  | .drwVxVyN _ _ _ => []
  | .skpVx _ => []
  | .sknpVx _ => []
  | .ldVxK _ => []
  | .ldDtVx _ => []
  | .ldStVx _ => []
  | .addIVx _ => []
  | .ldFVx _ => []
  | .ldBVx _ => []
  | .ldMiVx _ => []

/-- The instructions that write V[15] as a flag (10_state.md R24), Fx1E only with its quirk on. -/
def Instr.writesFlag (c : Config) : Instr → Bool
  | .addVxVy _ _ => true
  | .subVxVy _ _ => true
  | .shrVxVy _ _ => true
  | .subnVxVy _ _ => true
  | .shlVxVy _ _ => true
  | .drwVxVyN _ _ _ => true
  | .addIVx _ => c.quirkFx1eVf
  | .cls => false
  | .ret => false
  | .jp _ => false
  | .call _ => false
  | .seVxKk _ _ => false
  | .sneVxKk _ _ => false
  | .seVxVy _ _ => false
  | .sneVxVy _ _ => false
  | .ldVxKk _ _ => false
  | .addVxKk _ _ => false
  | .ldVxVy _ _ => false
  | .orVxVy _ _ => false
  | .andVxVy _ _ => false
  | .xorVxVy _ _ => false
  | .ldINnn _ => false
  | .jpV0Nnn _ => false
  | .rndVxKk _ _ => false
  | .skpVx _ => false
  | .sknpVx _ => false
  | .ldVxDt _ => false
  | .ldVxK _ => false
  | .ldDtVx _ => false
  | .ldStVx _ => false
  | .ldFVx _ => false
  | .ldBVx _ => false
  | .ldMiVx _ => false
  | .ldVxMi _ => false

end Sys2Proof
end

