-- ==== Sys2Proof/Certificates/Slice0/Obligations.lean ====
section
/-! DEFINITION. The statements for the provers. Each says which text of the spec it formalises. A clause that rests on
a decision of the spec (92_eei_decisions.md) or of this model names it. -/

open Sys2Proof Sys2Proof.Machine

/-! ### Encoding -/

/-- 30_encoding.md, sections 1 to 3: no bit of any operand is lost. -/
def Obligations.EveryInstructionSurvivesEncoding : Prop :=
  ∀ i : Instr, decodeWord (encode i) = .ok i

/-- 30_encoding.md, sections 1 to 3: a word has one meaning, and the meaning determines the word. -/
def Obligations.DecodedInstructionDeterminesWord : Prop :=
  ∀ (w : Word) (i : Instr), decodeWord w = .ok i → encode i = w

/-- 30_encoding.md R75: a word is the instruction of the row it matches, and illegal, with DecodeError from `step`, if
it matches none. That decoding reads nothing but the word is the type of `decodeWord`. -/
def Obligations.DecodingFollowsOpcodeMap : Prop :=
  ∀ w : Word,
    (∀ r ∈ opcodeRows, r.admits w = true → ∃ i, decodeWord w = .ok i ∧ i.opRow = r) ∧
    (∀ i, decodeWord w = .ok i → i.opRow ∈ opcodeRows ∧ i.opRow.admits w = true) ∧
    ((∀ r ∈ opcodeRows, r.admits w = false) →
      (∃ e, decodeWord w = .error e) ∧
      ∀ s : State, s.run = .running → fetchWord s = w → step s = .fault .decodeError)

/-- 30_encoding.md, section 3 ("A word matches at most one row"), derived there from the map. -/
def Obligations.OpcodeRowsNeverOverlap : Prop :=
  ∀ w : Word, ∀ r ∈ opcodeRows, ∀ r' ∈ opcodeRows, r.admits w = true → r'.admits w = true → r = r'

/-- 30_encoding.md, section 4, the table of illegal words, class by class, in arithmetic on the word. Class 0 rests on
the spec's decisions D1 and D2 (log entry 16). -/
def Obligations.IllegalWordsAreThoseOfTheTable : Prop :=
  ∀ w : Word,
    (decodeWord w = .error .class0 ↔ w.toNat < 0x1000 ∧ w.toNat ≠ 0x00E0 ∧ w.toNat ≠ 0x00EE) ∧
    (decodeWord w = .error .class5 ↔ w.toNat / 0x1000 = 5 ∧ w.toNat % 16 ≠ 0) ∧
    (decodeWord w = .error .class8 ↔ w.toNat / 0x1000 = 8 ∧ w.toNat % 16 ∈ [8, 9, 0xA, 0xB, 0xC, 0xD, 0xF]) ∧
    (decodeWord w = .error .class9 ↔ w.toNat / 0x1000 = 9 ∧ w.toNat % 16 ≠ 0) ∧
    (decodeWord w = .error .classE ↔ w.toNat / 0x1000 = 0xE ∧ w.toNat % 256 ∉ [0x9E, 0xA1]) ∧
    (decodeWord w = .error .classF ↔
      w.toNat / 0x1000 = 0xF ∧ w.toNat % 256 ∉ [0x07, 0x0A, 0x15, 0x18, 0x1E, 0x29, 0x33, 0x55, 0x65])

/-- Words written out from 30_encoding.md R72 and R76, one or more of each format. -/
def Obligations.SampleWordsDecode : Prop :=
  decodeWord 0b0000000011100000#16 = .ok .cls ∧
  decodeWord 0b0001101010111100#16 = .ok (.jp 0xABC#12) ∧
  decodeWord 0b0011001100101010#16 = .ok (.seVxKk 3 0x2A#8) ∧
  decodeWord 0b1000000100100111#16 = .ok (.subnVxVy 1 2) ∧
  decodeWord 0b1101000000010010#16 = .ok (.drwVxVyN 0 1 2#4) ∧
  decodeWord 0b1111010000101001#16 = .ok (.ldFVx 4) ∧
  decodeBytes 0x81#8 0x2E#8 = .ok (.shlVxVy 1 2)

/-! ### The step -/

/-- 40_step_dispatch.md R92: fetch two bytes, high byte first, each address modulo 0x1000; decode; an illegal word
raises DecodeError; otherwise the handler runs, `step` adds nothing, and an error leaves all state as it was. -/
def Obligations.StepRunsTheDecodedInstruction : Prop :=
  ∀ s : State, s.run = .running →
    (fetchWord s).toNat = (memRead s (s.pc.toNat % 0x1000)).toNat * 256 + (memRead s ((s.pc.toNat + 1) % 0x1000)).toNat ∧
    (∀ e, decodeWord (fetchWord s) = .error e → step s = .fault .decodeError) ∧
    (∀ i, decodeWord (fetchWord s) = .ok i → step s = exec i s) ∧
    (∀ f, step s = .fault f → perform .step s = (s, .error f))

/-- 40_step_dispatch.md, the `step` of AWAITING_KEY, on the spec's decision D15 (log entry 13): with no press edge
nothing changes; with one, V[WREG] takes the key index, PC advances by 2 (modulo 0x10000, decision D4, log entry 5), RUN
and KPEND are cleared, nothing else. -/
def Obligations.AwaitingStepPollsForTheKey : Prop :=
  ∀ s : State, s.run = .awaitingKey →
    (s.kpend = none → step s = .next s) ∧
    (∀ k, s.kpend = some k → ∃ t, step s = .next t ∧ (t.reg s.wreg).toNat = k.val ∧ t.pc = s.pc + 2 ∧
      t.run = .running ∧ t.kpend = none ∧ t.wreg = s.wreg ∧ SameBut [.keyWait] [s.wreg] s t)

/-- 40_step_dispatch.md, the results of `step`: it fails exactly in the three cases of 60_exceptions.md, section 1. -/
def Obligations.StepFailsInExactlyThreeCases : Prop :=
  ∀ (s : State) (f : Fault), step s = .fault f ↔
    s.run = .running ∧
      ((f = .decodeError ∧ legalWord (fetchWord s) = false) ∨
       (f = .stackOverflow ∧ (fetchWord s).toNat / 0x1000 = 2 ∧ s.sp.val = 16) ∨
       (f = .stackUnderflow ∧ (fetchWord s).toNat = 0x00EE ∧ s.sp.val = 0))

/-- 60_exceptions.md, section 1: the error kinds are a closed list, so no operation ends in anything but OK or one of
them: the model refuses nothing. -/
def Obligations.NoOperationIsRefused : Prop :=
  ∀ (op : HostOp) (s : State) (r : Refusal), (perform op s).2 ≠ .refused r

/-- 60_exceptions.md, section 1: every instruction completes in every state, but CALL on a full and RET on an empty
stack. -/
def Obligations.EveryInstructionCompletesButForTheStack : Prop :=
  ∀ (i : Instr) (s : State),
    (¬ ((∃ nnn, i = .call nnn) ∧ s.sp.val = 16) ∧ ¬ (i = .ret ∧ s.sp.val = 0) → ∃ t, exec i s = .next t) ∧
    ((∃ nnn, i = .call nnn) → s.sp.val = 16 → exec i s = .fault .stackOverflow) ∧
    (i = .ret → s.sp.val = 0 → exec i s = .fault .stackUnderflow)

/-! ### Control transfer (41_flow_stack.md) -/

/-- 41_flow_stack.md R100. -/
def Obligations.JumpGoesToItsAddress : Prop :=
  ∀ (nnn : BitVec 12) (s : State), (encode (.jp nnn)).toNat = 0x1000 + nnn.toNat ∧
    ∃ t, exec (.jp nnn) s = .next t ∧ t.pc.toNat = nnn.toNat ∧ SameBut [] [] s t

/-- 41_flow_stack.md, 2nnn: the address pushed is the CALL's own, the spec's decision D3 (log entry 6). -/
def Obligations.CallPushesItsOwnAddress : Prop :=
  ∀ (nnn : BitVec 12) (s : State), (encode (.call nnn)).toNat = 0x2000 + nnn.toNat ∧ (s.sp.val < 16 → ∃ t, exec (.call nnn) s = .next t ∧
    t.pc.toNat = nnn.toNat ∧ t.sp.val = s.sp.val + 1 ∧
    (∀ j : Fin 16, t.stk[j.val] = if j.val = s.sp.val then s.pc else s.stk[j.val]) ∧ SameBut [.stack] [] s t)

/-- 60_exceptions.md R162: 2nnn at SP = 16 raises StackOverflow and no state changes. -/
def Obligations.CallOnFullStackOverflows : Prop :=
  ∀ (nnn : BitVec 12) (s : State), s.sp.val = 16 →
    exec (.call nnn) s = .fault .stackOverflow ∧
    (s.run = .running → decodeWord (fetchWord s) = .ok (.call nnn) →
      step s = .fault .stackOverflow ∧ perform .step s = (s, .error .stackOverflow))

/-- 41_flow_stack.md, 00EE: RET pops, PC is the popped value plus 2 modulo 0x10000 (the spec's decisions D3 and D4, log
entries 5 and 6), the slot keeps its content (log entry 21); at SP = 0 it raises StackUnderflow. -/
def Obligations.ReturnPopsAndAddsTwo : Prop :=
  ∀ s : State, (encode .ret).toNat = 0x00EE ∧
    (0 < s.sp.val → ∃ t, exec .ret s = .next t ∧ t.sp.val + 1 = s.sp.val ∧ t.stk = s.stk ∧
      (∀ j : Fin 16, j.val + 1 = s.sp.val → t.pc.toNat = (s.stk[j.val].toNat + 2) % 0x10000) ∧ SameBut [.stack] [] s t) ∧
    (s.sp.val = 0 → exec .ret s = .fault .stackUnderflow)

/-- 60_exceptions.md R163: 00EE at SP = 0 raises StackUnderflow and no state changes. -/
def Obligations.ReturnOnEmptyStackUnderflows : Prop :=
  ∀ s : State, s.sp.val = 0 → s.run = .running → (fetchWord s).toNat = 0x00EE →
    step s = .fault .stackUnderflow ∧ perform .step s = (s, .error .stackUnderflow)

/-- 95_test_vectors.md S4: a RET that finds the CALL's entry on top returns to the instruction after the CALL (A + 2
modulo 0x10000, the spec's decision D4), with the stack as deep as before it. -/
def Obligations.CallThenReturnComesBack : Prop :=
  ∀ (nnn : BitVec 12) (s t u : State), exec (.call nnn) s = .next t → u.sp = t.sp →
    (∀ j : Fin 16, j.val = s.sp.val → u.stk[j.val] = t.stk[j.val]) →
    ∃ v, exec .ret u = .next v ∧ v.pc.toNat = (s.pc.toNat + 2) % 0x10000 ∧ v.sp = s.sp

/-- 41_flow_stack.md R103 and R104. -/
def Obligations.ByteSkipsCompareWithImmediate : Prop :=
  ∀ (x : RegIdx) (kk : Byte) (s : State),
    (encode (.seVxKk x kk)).toNat = 0x3000 + x.val * 0x100 + kk.toNat ∧
    (encode (.sneVxKk x kk)).toNat = 0x4000 + x.val * 0x100 + kk.toNat ∧
    (∃ t, exec (.seVxKk x kk) s = .next t ∧ SameBut [] [] s t ∧
      (s.reg x = kk → PcPlus 4 s t) ∧ (s.reg x ≠ kk → PcPlus 2 s t)) ∧
    (∃ t, exec (.sneVxKk x kk) s = .next t ∧ SameBut [] [] s t ∧
      (s.reg x ≠ kk → PcPlus 4 s t) ∧ (s.reg x = kk → PcPlus 2 s t))

/-- 41_flow_stack.md R105 and R106. -/
def Obligations.RegisterSkipsCompareRegisters : Prop :=
  ∀ (x y : RegIdx) (s : State),
    (encode (.seVxVy x y)).toNat = 0x5000 + x.val * 0x100 + y.val * 0x10 ∧
    (encode (.sneVxVy x y)).toNat = 0x9000 + x.val * 0x100 + y.val * 0x10 ∧
    (∃ t, exec (.seVxVy x y) s = .next t ∧ SameBut [] [] s t ∧
      (s.reg x = s.reg y → PcPlus 4 s t) ∧ (s.reg x ≠ s.reg y → PcPlus 2 s t)) ∧
    (∃ t, exec (.sneVxVy x y) s = .next t ∧ SameBut [] [] s t ∧
      (s.reg x ≠ s.reg y → PcPlus 4 s t) ∧ (s.reg x = s.reg y → PcPlus 2 s t))

/-- 41_flow_stack.md, Bnnn: the sum is stored unmasked, the spec's decision D4 (log entry 5). -/
def Obligations.OffsetJumpAddsRegisterZero : Prop :=
  ∀ (nnn : BitVec 12) (s : State), (encode (.jpV0Nnn nnn)).toNat = 0xB000 + nnn.toNat ∧
    ∃ t, exec (.jpV0Nnn nnn) s = .next t ∧ t.pc.toNat = nnn.toNat + (s.reg 0).toNat ∧ SameBut [] [] s t

/-- 10_state.md, section 4, on the spec's decision D4 (log entry 5): A + 2 and A + 4 are modulo 0x10000. Each instruction
that is no control transfer ends with A + 2; a skip ends with A + 4 exactly when its condition holds, else with A + 2.
The keys of Ex9E and ExA1 rest on D14 (log entry 14). -/
def Obligations.ProgramCounterWrapsAtSixteenBits : Prop :=
  ∀ (i : Instr) (s t : State), exec i s = .next t →
    (i.sequential = true → t.pc.toNat = (s.pc.toNat + 2) % 0x10000) ∧
    (∀ x kk, i = .seVxKk x kk → t.pc.toNat = (s.pc.toNat + if s.reg x = kk then 4 else 2) % 0x10000) ∧
    (∀ x kk, i = .sneVxKk x kk → t.pc.toNat = (s.pc.toNat + if s.reg x = kk then 2 else 4) % 0x10000) ∧
    (∀ x y, i = .seVxVy x y → t.pc.toNat = (s.pc.toNat + if s.reg x = s.reg y then 4 else 2) % 0x10000) ∧
    (∀ x y, i = .sneVxVy x y → t.pc.toNat = (s.pc.toNat + if s.reg x = s.reg y then 2 else 4) % 0x10000) ∧
    (∀ (x : RegIdx) (k : KeyIdx), k.val = (s.reg x).toNat % 16 →
      (i = .skpVx x → t.pc.toNat = (s.pc.toNat + if s.pressed k = true then 4 else 2) % 0x10000) ∧
      (i = .sknpVx x → t.pc.toNat = (s.pc.toNat + if s.pressed k = true then 2 else 4) % 0x10000))

/-! ### Registers (42_alu.md) -/

/-- 42_alu.md R111 and R113. -/
def Obligations.RegisterLoadsCopyTheOperand : Prop :=
  ∀ (x y : RegIdx) (kk : Byte) (s : State),
    (encode (.ldVxKk x kk)).toNat = 0x6000 + x.val * 0x100 + kk.toNat ∧
    (encode (.ldVxVy x y)).toNat = 0x8000 + x.val * 0x100 + y.val * 0x10 ∧
    (∃ t, exec (.ldVxKk x kk) s = .next t ∧ t.reg x = kk ∧ PcPlus 2 s t ∧ SameBut [] [x] s t) ∧
    (∃ t, exec (.ldVxVy x y) s = .next t ∧ t.reg x = s.reg y ∧ PcPlus 2 s t ∧ SameBut [] [x] s t)

/-- 42_alu.md R112: no flag, whatever the sum. -/
def Obligations.ImmediateAddWrapsWithoutFlag : Prop :=
  ∀ (x : RegIdx) (kk : Byte) (s : State),
    (encode (.addVxKk x kk)).toNat = 0x7000 + x.val * 0x100 + kk.toNat ∧
    ∃ t, exec (.addVxKk x kk) s = .next t ∧ (t.reg x).toNat = ((s.reg x).toNat + kk.toNat) % 256 ∧
      PcPlus 2 s t ∧ SameBut [] [x] s t

/-- 42_alu.md R114, R115 and R116, bit by bit; V[15] is left alone unless it is the destination. -/
def Obligations.LogicActsBitByBitWithoutFlag : Prop :=
  ∀ (x y : RegIdx) (s : State),
    (encode (.orVxVy x y)).toNat = 0x8001 + x.val * 0x100 + y.val * 0x10 ∧
    (encode (.andVxVy x y)).toNat = 0x8002 + x.val * 0x100 + y.val * 0x10 ∧
    (encode (.xorVxVy x y)).toNat = 0x8003 + x.val * 0x100 + y.val * 0x10 ∧
    (∃ t, exec (.orVxVy x y) s = .next t ∧ PcPlus 2 s t ∧ SameBut [] [x] s t ∧
      ∀ k, (t.reg x).getLsbD k = ((s.reg x).getLsbD k || (s.reg y).getLsbD k)) ∧
    (∃ t, exec (.andVxVy x y) s = .next t ∧ PcPlus 2 s t ∧ SameBut [] [x] s t ∧
      ∀ k, (t.reg x).getLsbD k = ((s.reg x).getLsbD k && (s.reg y).getLsbD k)) ∧
    (∃ t, exec (.xorVxVy x y) s = .next t ∧ PcPlus 2 s t ∧ SameBut [] [x] s t ∧
      ∀ k, (t.reg x).getLsbD k = ((s.reg x).getLsbD k ^^ (s.reg y).getLsbD k))

/-- 42_alu.md R117: the sum modulo 256, then the carry in V[15], which wins when x = 15. -/
def Obligations.RegisterAddSetsCarry : Prop :=
  ∀ (x y : RegIdx) (s : State),
    (encode (.addVxVy x y)).toNat = 0x8004 + x.val * 0x100 + y.val * 0x10 ∧
    ∃ t, exec (.addVxVy x y) s = .next t ∧
      (x ≠ 15 → (t.reg x).toNat = ((s.reg x).toNat + (s.reg y).toNat) % 256) ∧
      (t.reg 15).toNat = (if 255 < (s.reg x).toNat + (s.reg y).toNat then 1 else 0) ∧
      PcPlus 2 s t ∧ SameBut [] [x, 15] s t

/-- 42_alu.md R118 and R120: the difference modulo 256, then 1 in V[15] exactly when there is no borrow; the flag wins
when x = 15. -/
def Obligations.SubtractionsSetNoBorrow : Prop :=
  ∀ (x y : RegIdx) (s : State),
    (encode (.subVxVy x y)).toNat = 0x8005 + x.val * 0x100 + y.val * 0x10 ∧
    (encode (.subnVxVy x y)).toNat = 0x8007 + x.val * 0x100 + y.val * 0x10 ∧
    (∃ t, exec (.subVxVy x y) s = .next t ∧
      (x ≠ 15 → ((t.reg x).toNat : Int) = ((s.reg x).toNat - (s.reg y).toNat : Int) % 256) ∧
      (t.reg 15).toNat = (if (s.reg y).toNat ≤ (s.reg x).toNat then 1 else 0) ∧
      PcPlus 2 s t ∧ SameBut [] [x, 15] s t) ∧
    (∃ t, exec (.subnVxVy x y) s = .next t ∧
      (x ≠ 15 → ((t.reg x).toNat : Int) = ((s.reg y).toNat - (s.reg x).toNat : Int) % 256) ∧
      (t.reg 15).toNat = (if (s.reg x).toNat ≤ (s.reg y).toNat then 1 else 0) ∧
      PcPlus 2 s t ∧ SameBut [] [x, 15] s t)

/-- 42_alu.md R119 and R121: the source is V[y] with QUIRK_SHIFT_VY on and V[x] with it off; the flag is the bit
shifted out and wins when x = 15. -/
def Obligations.ShiftsFollowTheQuirk : Prop :=
  ∀ (x y : RegIdx) (s : State) (b : Byte), b = (if s.config.quirkShiftVy = true then s.reg y else s.reg x) →
    (encode (.shrVxVy x y)).toNat = 0x8006 + x.val * 0x100 + y.val * 0x10 ∧
    (encode (.shlVxVy x y)).toNat = 0x800E + x.val * 0x100 + y.val * 0x10 ∧
    (∃ t, exec (.shrVxVy x y) s = .next t ∧ (x ≠ 15 → (t.reg x).toNat = b.toNat / 2) ∧
      (t.reg 15).toNat = b.toNat % 2 ∧ PcPlus 2 s t ∧ SameBut [] [x, 15] s t) ∧
    (∃ t, exec (.shlVxVy x y) s = .next t ∧ (x ≠ 15 → (t.reg x).toNat = b.toNat * 2 % 256) ∧
      (t.reg 15).toNat = b.toNat / 128 ∧ PcPlus 2 s t ∧ SameBut [] [x, 15] s t)

/-- 42_alu.md, Cxkk: V[x] is a drawn byte and kk; exactly one byte is drawn, and none by any other instruction. The
byte is a free value indexed by the model's own counter, so this holds for every source of bytes (log entry 3). -/
def Obligations.RandomDrawsOneByteUnderMask : Prop :=
  (∀ (x : RegIdx) (kk : Byte) (s : State), (encode (.rndVxKk x kk)).toNat = 0xC000 + x.val * 0x100 + kk.toNat ∧
    ∃ t, exec (.rndVxKk x kk) s = .next t ∧ t.reg x = Config.randomByte s.draws &&& kk ∧
      (∀ k, kk.getLsbD k = false → (t.reg x).getLsbD k = false) ∧
      t.draws = s.draws + 1 ∧ PcPlus 2 s t ∧ SameBut [.draws] [x] s t) ∧
  (∀ (i : Instr) (s t : State), exec i s = .next t → (∀ x kk, i ≠ .rndVxKk x kk) → t.draws = s.draws)

/-- 42_alu.md and 10_state.md, section 3 (the table of the flag's writers): an instruction changes no register but its
destinations and, if it is one that writes the flag, V[15], which it then leaves 0 or 1. (Fx1E rests on the spec's
decision D18, Dxyn on D12.) -/
def Obligations.OnlyDestinationsAndFlagChange : Prop :=
  ∀ (i : Instr) (s t : State), exec i s = .next t →
    (∀ r, r ∉ i.destinations → ¬ (r = 15 ∧ i.writesFlag s.config = true) → t.reg r = s.reg r) ∧
    (i.writesFlag s.config = true → (t.reg 15).toNat ≤ 1)

/-- 95_test_vectors.md S1: 6xkk then 7x(kk2) leaves V[x] = (kk + kk2) mod 256, for x = 15 too, and PC + 4 modulo 0x10000
(the spec's decision D4, log entry 5). -/
def Obligations.LoadThenAddGivesTheSum : Prop :=
  ∀ (x : RegIdx) (a b : Byte) (s t : State), exec (.ldVxKk x a) s = .next t →
    ∃ u, exec (.addVxKk x b) t = .next u ∧ (u.reg x).toNat = (a.toNat + b.toNat) % 256 ∧
      u.pc.toNat = (s.pc.toNat + 4) % 0x10000 ∧ SameBut [] [x] s u

/-! ### Index and memory (43_index_memory.md) -/

/-- 43_index_memory.md R130. -/
def Obligations.IndexLoadClearsHighBits : Prop :=
  ∀ (nnn : BitVec 12) (s : State), (encode (.ldINnn nnn)).toNat = 0xA000 + nnn.toNat ∧
    ∃ t, exec (.ldINnn nnn) s = .next t ∧ t.i.toNat = nnn.toNat ∧ PcPlus 2 s t ∧ SameBut [.index] [] s t

/-- 43_index_memory.md, Fx1E: I is stored unmasked; V[15] is written only with QUIRK_FX1E_VF, judged on I modulo
0x1000, the spec's decision D18 (log entry 1). A + 2 is modulo 0x10000, decision D4 (log entry 5). -/
def Obligations.IndexAddFollowsTheQuirk : Prop :=
  ∀ (x : RegIdx) (s : State), (encode (.addIVx x)).toNat = 0xF01E + x.val * 0x100 ∧ ∃ t, exec (.addIVx x) s = .next t ∧
    t.i.toNat = (s.i.toNat + (s.reg x).toNat) % 0x10000 ∧ t.pc = s.pc + 2 ∧
    (s.config.quirkFx1eVf = false → SameBut [.index] [] s t) ∧
    (s.config.quirkFx1eVf = true → SameBut [.index] [15] s t ∧
      (t.reg 15).toNat = if 0xFFF < s.i.toNat % 0x1000 + (s.reg x).toNat then 1 else 0)

/-- 43_index_memory.md, Fx29: the digit is the low nibble of V[x], the spec's decision D13 (log entry 14), and its sprite
is at 5 times the digit, decision D10 (log entry 2, PRESUMED). A + 2 is modulo 0x10000, decision D4 (log entry 5). -/
def Obligations.FontLookupIsFiveTimesTheDigit : Prop :=
  ∀ (x : RegIdx) (s : State), (encode (.ldFVx x)).toNat = 0xF029 + x.val * 0x100 ∧
    ∃ t, exec (.ldFVx x) s = .next t ∧ t.i.toNat = 5 * ((s.reg x).toNat % 16) ∧
    t.pc = s.pc + 2 ∧ SameBut [.index] [] s t

/-- 43_index_memory.md, Fx33: the addresses stored to are `indexAddr s k` for k < 3; a byte in the font region keeps its
value, the spec's decision D5 (log entry 7), and 0x050..0x1FF is ordinary RAM, decision D6 (log entry 8). A + 2 is modulo
0x10000, decision D4 (log entry 5). -/
def Obligations.DecimalStoreWritesThreeDigits : Prop :=
  ∀ (x : RegIdx) (s : State), (encode (.ldBVx x)).toNat = 0xF033 + x.val * 0x100 ∧
    ∃ t, exec (.ldBVx x) s = .next t ∧ t.pc = s.pc + 2 ∧ SameBut [.memory] [] s t ∧
    (∀ k < 3, inFontRegion (indexAddr s k) = false →
      (memRead t (indexAddr s k)).toNat = (s.reg x).toNat / 10 ^ (2 - k) % 10) ∧
    (∀ a, inFontRegion a = true → memRead t a = memRead s a) ∧
    (∀ a, (∀ k < 3, wrapAddr a ≠ wrapAddr (indexAddr s k)) → memRead t a = memRead s a)

/-- 43_index_memory.md, Fx55: the addresses stored to are `indexAddr s k` for k ≤ x; a byte in the font region keeps its
value, the spec's decision D5 (log entry 7), and 0x050..0x1FF is ordinary RAM, decision D6 (log entry 8). A + 2 is modulo
0x10000, decision D4 (log entry 5). -/
def Obligations.RegisterStoreWritesTheRange : Prop :=
  ∀ (x : RegIdx) (s : State), (encode (.ldMiVx x)).toNat = 0xF055 + x.val * 0x100 ∧
    ∃ t, exec (.ldMiVx x) s = .next t ∧ t.pc = s.pc + 2 ∧ SameBut [.memory] [] s t ∧
    (∀ r : RegIdx, r ≤ x → inFontRegion (indexAddr s r.val) = false → memRead t (indexAddr s r.val) = s.reg r) ∧
    (∀ a, inFontRegion a = true → memRead t a = memRead s a) ∧
    (∀ a, (∀ r : RegIdx, r ≤ x → wrapAddr a ≠ wrapAddr (indexAddr s r.val)) → memRead t a = memRead s a)

/-- 43_index_memory.md R135. -/
def Obligations.RegisterLoadReadsTheRange : Prop :=
  ∀ (x : RegIdx) (s : State), (encode (.ldVxMi x)).toNat = 0xF065 + x.val * 0x100 ∧
    ∃ t, exec (.ldVxMi x) s = .next t ∧ (∀ r : RegIdx, r ≤ x → t.reg r = memRead s (s.i.toNat + r.val)) ∧
      PcPlus 2 s t ∧ SameBut [] (regsUpTo x) s t

/-- 00_scope.md, section 5, the primitive MemWrite; the font region drops stores, the spec's decision D5 (log entry 7),
and a store to 0x050..0x1FF reads back, decision D6 (log entry 8). -/
def Obligations.StoredByteReadsBackOutsideTheFont : Prop :=
  ∀ (s : State) (a a' : Nat) (b : Byte), memRead (s.setMem (Memory.store s.config.font s.mem a b)) a' =
    if a % 0x1000 = a' % 0x1000 ∧ 0x04F < a' % 0x1000 then b else memRead s a'

/-- No instruction changes a byte of the font region: 20_memory.md, section 1, on the spec's decision D5 (log entry 7).
No `load` does: 70_reset_and_hazards.md, section 2, on the spec's decisions D8 (bytes outside the image stay) and D9 (an
oversize image changes nothing) (log entry 10). -/
def Obligations.FontRegionIsNeverOverwritten : Prop :=
  (∀ (i : Instr) (s t : State) (a : Nat), exec i s = .next t → a % 0x1000 ≤ 0x04F → memRead t a = memRead s a) ∧
  (∀ (image : List Byte) (s : State) (a : Nat), a % 0x1000 ≤ 0x04F →
    memRead (perform (.load image) s).1 a = memRead s a)

/-! ### Display (44_display.md) -/

/-- 44_display.md R141. -/
def Obligations.ClearScreenClearsEveryPixel : Prop :=
  ∀ s : State, (encode .cls).toNat = 0x00E0 ∧
    ∃ t, exec .cls s = .next t ∧ (∀ px py, t.fb.pixel px py = false) ∧ PcPlus 2 s t ∧ SameBut [.display] [] s t

/-- 44_display.md, Dxyn, on the spec's decisions D11 (bit order) and D12 (operands read first) (log entries 11, 12): a
pixel changes exactly when a 1 bit of the sprite lies over it, and V[15] is 1 exactly when such a pixel was set. A + 2 is
modulo 0x10000, decision D4 (log entry 5). -/
def Obligations.DrawInvertsThePixelsUnderTheSprite : Prop :=
  ∀ (x y : RegIdx) (n : BitVec 4) (s : State),
    (encode (.drwVxVyN x y n)).toNat = 0xD000 + x.val * 0x100 + y.val * 0x10 + n.toNat ∧
    ∃ t, exec (.drwVxVyN x y n) s = .next t ∧ t.pc = s.pc + 2 ∧
    (∀ px py, t.fb.pixel px py ≠ s.fb.pixel px py ↔ SpriteCovers s x y n px py) ∧
    ((t.reg 15).toNat = 1 ∨ (t.reg 15).toNat = 0) ∧
    ((t.reg 15).toNat = 1 ↔ ∃ px py, SpriteCovers s x y n px py ∧ s.fb.pixel px py = true) ∧
    SameBut [.display] [15] s t

/-- 95_test_vectors.md S6: the same draw twice gives the display back, and the second sets V[15] to 1 exactly when the
first turned a pixel on (S6 says so of every sprite with a 1 bit, which needs such a pixel to have been off: log entry
24). Which pixels the sprite covers rests on the sprite bit order, the spec's decision D11 (log entry 11, PRESUMED). With
x or y = 15 the first draw would move the second (decision D12, log entry 12), so those are left out here; the single draw
is stated for them too. -/
def Obligations.DrawingTwiceRestoresTheDisplay : Prop :=
  ∀ (x y : RegIdx) (n : BitVec 4) (s t : State), x ≠ 15 → y ≠ 15 → exec (.drwVxVyN x y n) s = .next t →
    ∃ u, exec (.drwVxVyN x y n) t = .next u ∧ u.fb = s.fb ∧
      ((u.reg 15).toNat = 1 ↔ ∃ px py, SpriteCovers s x y n px py ∧ s.fb.pixel px py = false)

/-! ### Timers and keys (45_timer_keypad.md) -/

/-- 45_timer_keypad.md R150, R151 and R152, with the sound output of R152. -/
def Obligations.TimerTransfersCopyTheByte : Prop :=
  ∀ (x : RegIdx) (s : State),
    (encode (.ldVxDt x)).toNat = 0xF007 + x.val * 0x100 ∧
    (encode (.ldDtVx x)).toNat = 0xF015 + x.val * 0x100 ∧
    (encode (.ldStVx x)).toNat = 0xF018 + x.val * 0x100 ∧
    (∃ t, exec (.ldVxDt x) s = .next t ∧ t.reg x = s.dt ∧ PcPlus 2 s t ∧ SameBut [] [x] s t) ∧
    (∃ t, exec (.ldDtVx x) s = .next t ∧ t.dt = s.reg x ∧ PcPlus 2 s t ∧ SameBut [.delayTimer] [] s t) ∧
    (∃ t, exec (.ldStVx x) s = .next t ∧ t.st = s.reg x ∧ PcPlus 2 s t ∧ SameBut [.soundTimer] [] s t ∧
      (soundOut t = true ↔ 0 < (s.reg x).toNat))

/-- 45_timer_keypad.md, Ex9E and ExA1: the key is the low nibble of V[x], the spec's decision D14 (log entry 14). A + 2
and A + 4 are modulo 0x10000, decision D4 (log entry 5). -/
def Obligations.KeySkipsReadTheLatch : Prop :=
  ∀ (x : RegIdx) (s : State) (k : KeyIdx), k.val = (s.reg x).toNat % 16 →
    (encode (.skpVx x)).toNat = 0xE09E + x.val * 0x100 ∧
    (encode (.sknpVx x)).toNat = 0xE0A1 + x.val * 0x100 ∧
    (∃ t, exec (.skpVx x) s = .next t ∧ SameBut [] [] s t ∧
      t.pc = if s.pressed k = true then s.pc + 4 else s.pc + 2) ∧
    (∃ t, exec (.sknpVx x) s = .next t ∧ SameBut [] [] s t ∧
      t.pc = if s.pressed k = true then s.pc + 2 else s.pc + 4)

/-- 45_timer_keypad.md, Fx0A: it enters the wait, forgets any pending edge (the spec's decision D15, log entry 13), and
leaves PC and V[x]. -/
def Obligations.KeyWaitIsEnteredInPlace : Prop :=
  ∀ (x : RegIdx) (s : State), (encode (.ldVxK x)).toNat = 0xF00A + x.val * 0x100 ∧
    ∃ t, exec (.ldVxK x) s = .next t ∧ t.run = .awaitingKey ∧ t.wreg = x ∧
    t.kpend = none ∧ t.pc = s.pc ∧ SameBut [.keyWait] [] s t

/-- 95_test_vectors.md S8 and the `step` of AWAITING_KEY in 40_step_dispatch.md, on the spec's decisions D15 to D17 (log
entries 13 and 15): after Fx0A any run of steps, ticks and releases leaves PC and every register; the first press edge, of
a key that is up, then ends the wait at the next `step` with V[x] = k and PC + 2 (modulo 0x10000, decision D4, log entry
5). -/
def Obligations.KeyWaitEndsAtTheFirstPressEdge : Prop :=
  ∀ (x : RegIdx) (s t : State) (ops : List HostOp) (k : KeyIdx), exec (.ldVxK x) s = .next t →
    (∀ op ∈ ops, op = .step ∨ op = .tick ∨ ∃ q, op = .keyUp q) →
    (performAll ops t).pc = s.pc ∧ (performAll ops t).v = s.v ∧ (performAll ops t).run = .awaitingKey ∧
    ((performAll ops t).pressed k = false → ∃ u, step (hostKeyDown k (performAll ops t)) = .next u ∧
      (u.reg x).toNat = k.val ∧ u.pc = s.pc + 2 ∧ u.run = .running)

/-! ### The other host operations (60_exceptions.md, 70_reset_and_hazards.md) -/

/-- 60_exceptions.md, section 4: n ticks take n from each timer, stopping at 0, in RUNNING and in AWAITING_KEY (the
spec's decision D17, log entry 15), and change nothing else (95_test_vectors.md S7 is n = 60 and 61). -/
def Obligations.TicksCountDownAndSaturate : Prop :=
  ∀ (n : Nat) (s : State),
    (performAll (List.replicate n .tick) s).dt.toNat = s.dt.toNat - n ∧
    (performAll (List.replicate n .tick) s).st.toNat = s.st.toNat - n ∧
    (performAll (List.replicate n .tick) s).pc = s.pc ∧
    SameBut [.delayTimer, .soundTimer] [] s (performAll (List.replicate n .tick) s)

/-- 60_exceptions.md, section 5, on the spec's decisions D15 and D16 (log entry 13): a press sets the flag and is kept as
the pending edge only in the wait, of a key that was up, when none is kept; a release clears the flag and no edge. -/
def Obligations.KeyEventsUpdateTheLatch : Prop :=
  ∀ (k : KeyIdx) (s t u : State), perform (.keyDown k) s = (t, .ok) → perform (.keyUp k) s = (u, .ok) →
    (∀ q, t.pressed q = if q = k then true else s.pressed q) ∧
    (∀ q, u.pressed q = if q = k then false else s.pressed q) ∧
    (s.pressed k = false ∧ s.run = .awaitingKey ∧ s.kpend = none → t.kpend = some k) ∧
    (¬ (s.pressed k = false ∧ s.run = .awaitingKey ∧ s.kpend = none) → t.kpend = s.kpend) ∧
    t.run = s.run ∧ t.wreg = s.wreg ∧ t.pc = s.pc ∧ SameBut [.keys, .keyWait] [] s t ∧
    u.pc = s.pc ∧ SameBut [.keys] [] s u

/-- 70_reset_and_hazards.md, section 1, on the spec's decision D7 for every zero and on this model's log entries 1, 3
and 9: `reset` gives these values from any state; `State.reset` is the same with the default parameters. -/
def Obligations.ResetGivesEveryResetValue : Prop :=
  ∀ s t : State, perform .reset s = (t, .ok) →
    t.pc = 0x200 ∧ t.run = .running ∧ (∀ px py, t.fb.pixel px py = false) ∧
    (∀ a : Fin 80, memRead t a.val = s.config.font[a.val]) ∧ (∀ a, 0x04F < a % 0x1000 → memRead t a = 0) ∧
    (∀ r, t.reg r = 0) ∧ t.i = 0 ∧ t.sp = 0 ∧ (∀ j : Fin 16, t.stk[j.val] = 0) ∧ t.dt = 0 ∧ t.st = 0 ∧
    (∀ k, t.pressed k = false) ∧ t.wreg = 0 ∧ t.kpend = none ∧ t.config = s.config ∧
    (s.config = Config.default → s.draws = 0 → t = State.reset)

/-- 70_reset_and_hazards.md, section 2, on the spec's decisions D7, D8 and D9 (log entries 4 and 10): an image that fits
is copied to 0x200 and up, every other byte stays, and every other element is as after `reset`. -/
def Obligations.LoadPlacesTheImageAndResetsTheRest : Prop :=
  ∀ (image : List Byte) (s : State),
    (0xE00 < image.length → perform (.load image) s = (s, .error .programTooLarge)) ∧
    (image.length ≤ 0xE00 → ∃ t, perform (.load image) s = (t, .ok) ∧
      (∀ j, ∀ h : j < image.length, memRead t (0x200 + j) = image[j]) ∧
      (∀ a, a % 0x1000 < 0x200 ∨ 0x200 + image.length ≤ a % 0x1000 → memRead t a = memRead s a) ∧
      t = (hostReset s).setMem t.mem)

/-- 70_reset_and_hazards.md, section 2, the size boundary: an image of exactly 0xE00 bytes fills memory to 0xFFF, and
one of 0xE01 bytes is ProgramTooLarge. That nothing below 0x200 changes is the spec's decision D8, that the larger image
is rejected its decision D9 (log entry 10). -/
def Obligations.LargestImageFillsMemory : Prop :=
  ∀ (image : List Byte) (s : State),
    (∀ hl : image.length = 0xE00, ∃ t, perform (.load image) s = (t, .ok) ∧
      (∀ a, ∀ h : 0x200 ≤ a ∧ a ≤ 0xFFF, memRead t a = image[a - 0x200]) ∧
      (∀ a, a < 0x200 → memRead t a = memRead s a)) ∧
    (image.length = 0xE01 → (perform (.load image) s).2 = .error .programTooLarge)

/-- 60_exceptions.md R176 and R177: the display in row-major order, and sound exactly when ST > 0. -/
def Obligations.OutputsFollowTheState : Prop :=
  ∀ s : State, (displayOut s).length = 2048 ∧
    (∀ (px : Fin 64) (py : Fin 32), (displayOut s)[py.val * 64 + px.val]? = some (s.fb.pixel px py)) ∧
    (soundOut s = true ↔ 0 < s.st.toNat)

/-! ### The whole machine -/

/-- The invariant is this model's own (log entries 9 and 13 and the font rule of 20_memory.md, decision D5): from every
state that meets it, a `step` that ends in a next state meets it again. -/
def Obligations.StepKeepsTheMachineWellFormed : Prop :=
  ∀ s t : State, Inv s → step s = .next t → Inv t

/-- From every state that meets the model's invariant, every host operation, whatever its result, meets it again. -/
def Obligations.HostOperationsKeepTheMachineWellFormed : Prop :=
  ∀ (op : HostOp) (s : State), Inv s → Inv (perform op s).1

/-- The model's invariant holds after `reset`, with any parameters. -/
def Obligations.ResetIsWellFormed : Prop :=
  Inv State.reset ∧ ∀ (c : Config) (n : Nat), Inv (State.resetWith c n)

/-- In every state that some sequence of host operations (60_exceptions.md, section 3) reaches from `reset`, whatever the
parameters and the programs loaded, the invariant holds, and a `step` ends in OK or in one of its three errors
(60_exceptions.md, section 1). The invariant is this model's own: canonical memory (log entry 9), the font region as FONT
(20_memory.md, the spec's decision D5, log entry 7), a press edge pending only in the wait (10_state.md, section 7, the
spec's decision D15, log entry 13). -/
def Obligations.EveryReachableStateIsWellFormed : Prop :=
  ∀ s : State, Reachable s → Inv s ∧
    ((∃ t, step s = .next t ∧ Inv t) ∨ step s = .fault .decodeError ∨ step s = .fault .stackOverflow ∨
      step s = .fault .stackUnderflow)

/-- Each part of the state is changed only by the instructions named for it: the timers, the stack, the keys and RUN
(10_state.md, section 6), I (10_state.md, section 5), KPEND and WREG (10_state.md, sections 6 and 7; the spec's decision
D15, log entry 13), the display (10_state.md, section 8), memory (20_memory.md, section 3). The parameters are changed by
nothing (00_scope.md, section 4; decision D18, log entry 1). -/
def Obligations.OnlyNamedInstructionsTouchEachPart : Prop :=
  (∀ (i : Instr) (s t : State), exec i s = .next t →
    ((∀ x, i ≠ .ldDtVx x) → t.dt = s.dt) ∧
    ((∀ x, i ≠ .ldStVx x) → t.st = s.st) ∧
    (i ≠ .cls → (∀ x y n, i ≠ .drwVxVyN x y n) → t.fb = s.fb) ∧
    (i ≠ .ret → (∀ nnn, i ≠ .call nnn) → t.stk = s.stk ∧ t.sp = s.sp) ∧
    ((∀ nnn, i ≠ .ldINnn nnn) → (∀ x, i ≠ .addIVx x) → (∀ x, i ≠ .ldFVx x) → t.i = s.i) ∧
    ((∀ x, i ≠ .ldBVx x) → (∀ x, i ≠ .ldMiVx x) → t.mem = s.mem) ∧
    ((∀ x, i ≠ .ldVxK x) → t.run = s.run ∧ t.wreg = s.wreg ∧ t.kpend = s.kpend) ∧
    t.key = s.key) ∧
  (∀ (op : HostOp) (s : State), (perform op s).1.config = s.config)

/-- 45_timer_keypad.md, Fx18 ("there is no instruction that reads ST"): no instruction's effect on anything but ST
depends on ST, and after Fx18 nothing of the old value is left. -/
def Obligations.NoInstructionReadsTheSoundTimer : Prop :=
  ∀ (i : Instr) (s : State) (b : Byte),
    (∀ t, exec i s = .next t → (∀ x, i ≠ .ldStVx x) → exec i (s.setSt b) = .next (t.setSt b)) ∧
    (∀ f, exec i s = .fault f → exec i (s.setSt b) = .fault f) ∧
    (∀ x, exec (.ldStVx x) (s.setSt b) = exec (.ldStVx x) s)

/-- 10_state.md, section 6 (RUN): the wait is entered only by a `step` that runs Fx0A, and left only by a `step` with a
press edge pending, by `reset` or by `load`. -/
def Obligations.RunStateChangesOnlyAtTheKeyWait : Prop :=
  ∀ (op : HostOp) (s : State),
    (s.run = .running → (perform op s).1.run = .awaitingKey →
      op = .step ∧ ∃ x, decodeWord (fetchWord s) = .ok (.ldVxK x)) ∧
    (s.run = .awaitingKey → (perform op s).1.run = .running →
      (op = .step ∧ s.kpend ≠ none) ∨ op = .reset ∨ ∃ image, op = .load image)

/-- 70_reset_and_hazards.md, section 3 (the end of a run), derived there: from a jump to itself every further `step` is
OK and changes nothing. -/
def Obligations.FinishedRunNeverChanges : Prop :=
  ∀ (s : State), Finished s → ∀ k, core.run k s = .next s

/-- 70_reset_and_hazards.md, section 2 (running without a program), derived there: after `reset` with no `load`, every
`step` raises DecodeError and changes nothing, whatever the parameters. It rests on the spec's decisions D7 (memory is
zero after reset, log entry 4) and D1 (0x0000 is illegal, log entry 16). -/
def Obligations.NothingRunsBeforeALoad : Prop :=
  ∀ (c : Config) (m n : Nat), step (State.resetWith c n) = .fault .decodeError ∧
    performAll (List.replicate m .step) (State.resetWith c n) = State.resetWith c n
end

