-- ==== Sys2Proof/Laws/Encoding.lean ====
section
/-! SUPPORT. The fields of a packed word, and a packed word under the masks of the opcode map (30_encoding.md R71, R72). -/

namespace Sys2Proof

@[simp] theorem toFin_regBits (r : RegIdx) : (regBits r).toFin = r := rfl

theorem toNat_regBits (r : RegIdx) : (regBits r).toNat = r.val := rfl

/-! ### A packed word as a number -/

theorem toNat_append {m n : Nat} (a : BitVec m) (b : BitVec n) : (a ++ b).toNat = a.toNat * 2 ^ n + b.toNat := by
  rw [BitVec.toNat_append, Nat.shiftLeft_eq, ← Nat.mul_comm (2 ^ n), ← Nat.two_pow_add_eq_or_of_lt b.isLt]

theorem toNat_packNnn (c : BitVec 4) (nnn : BitVec 12) : (packNnn c nnn).toNat = c.toNat * 0x1000 + nnn.toNat :=
  toNat_append c nnn

theorem toNat_packXkk (c : BitVec 4) (x : RegIdx) (kk : Byte) :
    (packXkk c x kk).toNat = c.toNat * 0x1000 + x.val * 0x100 + kk.toNat := by
  rw [show (packXkk c x kk).toNat = (c ++ (regBits x ++ kk)).toNat from rfl, toNat_append c (regBits x ++ kk),
    toNat_append (regBits x) kk, toNat_regBits]
  ring

theorem toNat_packXyn (c : BitVec 4) (x y : RegIdx) (n : BitVec 4) :
    (packXyn c x y n).toNat = c.toNat * 0x1000 + x.val * 0x100 + y.val * 0x10 + n.toNat := by
  rw [show (packXyn c x y n).toNat = (c ++ (regBits x ++ (regBits y ++ n))).toNat from rfl,
    toNat_append c (regBits x ++ (regBits y ++ n)), toNat_append (regBits x) (regBits y ++ n),
    toNat_append (regBits y) n, toNat_regBits, toNat_regBits]
  ring

/-! ### The fields of a word as numbers (30_encoding.md R71) -/

theorem toNat_fieldClass (w : Word) : (fieldClass w).toNat = w.toNat / 0x1000 := by
  simp only [fieldClass, BitVec.extractLsb'_toNat, Nat.shiftRight_eq_div_pow]
  have := w.isLt; omega

theorem val_fieldX (w : Word) : (fieldX w).val = w.toNat / 0x100 % 16 := by
  simp only [fieldX, BitVec.val_toFin, BitVec.extractLsb'_toNat, Nat.shiftRight_eq_div_pow]

theorem val_fieldY (w : Word) : (fieldY w).val = w.toNat / 0x10 % 16 := by
  simp only [fieldY, BitVec.val_toFin, BitVec.extractLsb'_toNat, Nat.shiftRight_eq_div_pow]

theorem toNat_fieldN (w : Word) : (fieldN w).toNat = w.toNat % 16 := by
  simp only [fieldN, BitVec.extractLsb'_toNat, Nat.shiftRight_zero]

theorem toNat_fieldKk (w : Word) : (fieldKk w).toNat = w.toNat % 0x100 := by
  simp only [fieldKk, BitVec.extractLsb'_toNat, Nat.shiftRight_zero]

theorem toNat_fieldNnn (w : Word) : (fieldNnn w).toNat = w.toNat % 0x1000 := by
  simp only [fieldNnn, BitVec.extractLsb'_toNat, Nat.shiftRight_zero]

/-! ### The fields of a packed word -/

@[simp] theorem fieldClass_packNnn (c : BitVec 4) (nnn : BitVec 12) : fieldClass (packNnn c nnn) = c := by
  apply BitVec.eq_of_toNat_eq; rw [toNat_fieldClass, toNat_packNnn]; omega

@[simp] theorem fieldNnn_packNnn (c : BitVec 4) (nnn : BitVec 12) : fieldNnn (packNnn c nnn) = nnn := by
  apply BitVec.eq_of_toNat_eq; rw [toNat_fieldNnn, toNat_packNnn]; omega

@[simp] theorem fieldClass_packXkk (c : BitVec 4) (x : RegIdx) (kk : Byte) : fieldClass (packXkk c x kk) = c := by
  apply BitVec.eq_of_toNat_eq; rw [toNat_fieldClass, toNat_packXkk]; omega

@[simp] theorem fieldX_packXkk (c : BitVec 4) (x : RegIdx) (kk : Byte) : fieldX (packXkk c x kk) = x := by
  apply Fin.ext; rw [val_fieldX, toNat_packXkk]; omega

@[simp] theorem fieldKk_packXkk (c : BitVec 4) (x : RegIdx) (kk : Byte) : fieldKk (packXkk c x kk) = kk := by
  apply BitVec.eq_of_toNat_eq; rw [toNat_fieldKk, toNat_packXkk]; omega

@[simp] theorem fieldClass_packXyn (c : BitVec 4) (x y : RegIdx) (n : BitVec 4) : fieldClass (packXyn c x y n) = c := by
  apply BitVec.eq_of_toNat_eq; rw [toNat_fieldClass, toNat_packXyn]; omega

@[simp] theorem fieldX_packXyn (c : BitVec 4) (x y : RegIdx) (n : BitVec 4) : fieldX (packXyn c x y n) = x := by
  apply Fin.ext; rw [val_fieldX, toNat_packXyn]; omega

@[simp] theorem fieldY_packXyn (c : BitVec 4) (x y : RegIdx) (n : BitVec 4) : fieldY (packXyn c x y n) = y := by
  apply Fin.ext; rw [val_fieldY, toNat_packXyn]; omega

@[simp] theorem fieldN_packXyn (c : BitVec 4) (x y : RegIdx) (n : BitVec 4) : fieldN (packXyn c x y n) = n := by
  apply BitVec.eq_of_toNat_eq; rw [toNat_fieldN, toNat_packXyn]; omega

/-! ### A word under the masks of the opcode map (30_encoding.md R75, R76) -/

/-- A masked append is the append of the masked halves. -/
theorem append_and {m n : Nat} (a c : BitVec m) (b d : BitVec n) : (a ++ b) &&& (c ++ d) = (a &&& c) ++ (b &&& d) := by
  ext k
  simp only [BitVec.getElem_and, BitVec.getElem_append]
  split <;> rfl

theorem and_15 (c : BitVec 4) : c &&& 0xF#4 = c := BitVec.and_allOnes (x := c)

theorem and_255 (b : Byte) : b &&& 0xFF#8 = b := BitVec.and_allOnes (x := b)

/-- A word of a class, under the mask F000. -/
theorem packNnn_and (c : BitVec 4) (nnn : BitVec 12) : packNnn c nnn &&& 0xF000#16 = packNnn c 0 := by
  rw [show (0xF000#16) = 0xF#4 ++ 0x000#12 from rfl, packNnn, append_and, and_15, BitVec.and_zero]; rfl

theorem packXkk_eq_packNnn (c : BitVec 4) (x : RegIdx) (kk : Byte) : packXkk c x kk = packNnn c (regBits x ++ kk) := rfl

theorem packXyn_eq_packNnn (c : BitVec 4) (x y : RegIdx) (n : BitVec 4) :
    packXyn c x y n = packNnn c (regBits x ++ (regBits y ++ n)) := rfl

theorem packXkk_and (c : BitVec 4) (x : RegIdx) (kk : Byte) : packXkk c x kk &&& 0xF000#16 = packNnn c 0 := by
  rw [packXkk_eq_packNnn, packNnn_and]

theorem packXyn_and (c : BitVec 4) (x y : RegIdx) (n : BitVec 4) : packXyn c x y n &&& 0xF000#16 = packNnn c 0 := by
  rw [packXyn_eq_packNnn, packNnn_and]

/-- Format XY under the mask F00F. -/
theorem packXy_and (c : BitVec 4) (x y : RegIdx) (n : BitVec 4) : packXyn c x y n &&& 0xF00F#16 = packXyn c 0 0 n := by
  rw [show (0xF00F#16) = 0xF#4 ++ (0x0#4 ++ (0x0#4 ++ 0xF#4)) from rfl, packXyn, append_and, append_and, append_and,
    and_15, and_15, BitVec.and_zero, BitVec.and_zero]; rfl

/-- Format XS under the mask F0FF. -/
theorem packXs_and (c : BitVec 4) (x : RegIdx) (kk : Byte) : packXkk c x kk &&& 0xF0FF#16 = packXkk c 0 kk := by
  rw [show (0xF0FF#16) = 0xF#4 ++ (0x0#4 ++ 0xFF#8) from rfl, packXkk, append_and, append_and,
    and_15, and_255, BitVec.and_zero]; rfl

/-- Every word is the packing of its own fields. -/
theorem packNnn_fields (w : Word) : packNnn (fieldClass w) (fieldNnn w) = w := by
  apply BitVec.eq_of_toNat_eq; rw [toNat_packNnn, toNat_fieldClass, toNat_fieldNnn]; omega

theorem packXkk_fields (w : Word) : packXkk (fieldClass w) (fieldX w) (fieldKk w) = w := by
  apply BitVec.eq_of_toNat_eq; rw [toNat_packXkk, toNat_fieldClass, val_fieldX, toNat_fieldKk]; omega

theorem packXyn_fields (w : Word) : packXyn (fieldClass w) (fieldX w) (fieldY w) (fieldN w) = w := by
  apply BitVec.eq_of_toNat_eq; rw [toNat_packXyn, toNat_fieldClass, val_fieldX, val_fieldY, toNat_fieldN]; omega

end Sys2Proof
end

