-- ==== Sys2Proof/Laws/State.lean ====
section
/-! SUPPORT. One lemma per field per update of the state, and what a register reads after a register write. -/

namespace Sys2Proof.Machine

/-! ### setReg -/

@[simp] theorem State.setReg_mem (s : State) (x : RegIdx) (b : Byte) : (s.setReg x b).mem = s.mem := rfl
@[simp] theorem State.setReg_v (s : State) (x : RegIdx) (b : Byte) : (s.setReg x b).v = s.v.set x.val b x.isLt := rfl
@[simp] theorem State.setReg_i (s : State) (x : RegIdx) (b : Byte) : (s.setReg x b).i = s.i := rfl
@[simp] theorem State.setReg_pc (s : State) (x : RegIdx) (b : Byte) : (s.setReg x b).pc = s.pc := rfl
@[simp] theorem State.setReg_stk (s : State) (x : RegIdx) (b : Byte) : (s.setReg x b).stk = s.stk := rfl
@[simp] theorem State.setReg_sp (s : State) (x : RegIdx) (b : Byte) : (s.setReg x b).sp = s.sp := rfl
@[simp] theorem State.setReg_dt (s : State) (x : RegIdx) (b : Byte) : (s.setReg x b).dt = s.dt := rfl
@[simp] theorem State.setReg_st (s : State) (x : RegIdx) (b : Byte) : (s.setReg x b).st = s.st := rfl
@[simp] theorem State.setReg_fb (s : State) (x : RegIdx) (b : Byte) : (s.setReg x b).fb = s.fb := rfl
@[simp] theorem State.setReg_key (s : State) (x : RegIdx) (b : Byte) : (s.setReg x b).key = s.key := rfl
@[simp] theorem State.setReg_run (s : State) (x : RegIdx) (b : Byte) : (s.setReg x b).run = s.run := rfl
@[simp] theorem State.setReg_wreg (s : State) (x : RegIdx) (b : Byte) : (s.setReg x b).wreg = s.wreg := rfl
@[simp] theorem State.setReg_kpend (s : State) (x : RegIdx) (b : Byte) : (s.setReg x b).kpend = s.kpend := rfl
@[simp] theorem State.setReg_draws (s : State) (x : RegIdx) (b : Byte) : (s.setReg x b).draws = s.draws := rfl
@[simp] theorem State.setReg_config (s : State) (x : RegIdx) (b : Byte) : (s.setReg x b).config = s.config := rfl

/-! ### setRegs -/

@[simp] theorem State.setRegs_mem (s : State) (w : Vector Byte 16) : (s.setRegs w).mem = s.mem := rfl
@[simp] theorem State.setRegs_v (s : State) (w : Vector Byte 16) : (s.setRegs w).v = w := rfl
@[simp] theorem State.setRegs_i (s : State) (w : Vector Byte 16) : (s.setRegs w).i = s.i := rfl
@[simp] theorem State.setRegs_pc (s : State) (w : Vector Byte 16) : (s.setRegs w).pc = s.pc := rfl
@[simp] theorem State.setRegs_stk (s : State) (w : Vector Byte 16) : (s.setRegs w).stk = s.stk := rfl
@[simp] theorem State.setRegs_sp (s : State) (w : Vector Byte 16) : (s.setRegs w).sp = s.sp := rfl
@[simp] theorem State.setRegs_dt (s : State) (w : Vector Byte 16) : (s.setRegs w).dt = s.dt := rfl
@[simp] theorem State.setRegs_st (s : State) (w : Vector Byte 16) : (s.setRegs w).st = s.st := rfl
@[simp] theorem State.setRegs_fb (s : State) (w : Vector Byte 16) : (s.setRegs w).fb = s.fb := rfl
@[simp] theorem State.setRegs_key (s : State) (w : Vector Byte 16) : (s.setRegs w).key = s.key := rfl
@[simp] theorem State.setRegs_run (s : State) (w : Vector Byte 16) : (s.setRegs w).run = s.run := rfl
@[simp] theorem State.setRegs_wreg (s : State) (w : Vector Byte 16) : (s.setRegs w).wreg = s.wreg := rfl
@[simp] theorem State.setRegs_kpend (s : State) (w : Vector Byte 16) : (s.setRegs w).kpend = s.kpend := rfl
@[simp] theorem State.setRegs_draws (s : State) (w : Vector Byte 16) : (s.setRegs w).draws = s.draws := rfl
@[simp] theorem State.setRegs_config (s : State) (w : Vector Byte 16) : (s.setRegs w).config = s.config := rfl

/-! ### setPc -/

@[simp] theorem State.setPc_mem (s : State) (a : Word) : (s.setPc a).mem = s.mem := rfl
@[simp] theorem State.setPc_v (s : State) (a : Word) : (s.setPc a).v = s.v := rfl
@[simp] theorem State.setPc_i (s : State) (a : Word) : (s.setPc a).i = s.i := rfl
@[simp] theorem State.setPc_pc (s : State) (a : Word) : (s.setPc a).pc = a := rfl
@[simp] theorem State.setPc_stk (s : State) (a : Word) : (s.setPc a).stk = s.stk := rfl
@[simp] theorem State.setPc_sp (s : State) (a : Word) : (s.setPc a).sp = s.sp := rfl
@[simp] theorem State.setPc_dt (s : State) (a : Word) : (s.setPc a).dt = s.dt := rfl
@[simp] theorem State.setPc_st (s : State) (a : Word) : (s.setPc a).st = s.st := rfl
@[simp] theorem State.setPc_fb (s : State) (a : Word) : (s.setPc a).fb = s.fb := rfl
@[simp] theorem State.setPc_key (s : State) (a : Word) : (s.setPc a).key = s.key := rfl
@[simp] theorem State.setPc_run (s : State) (a : Word) : (s.setPc a).run = s.run := rfl
@[simp] theorem State.setPc_wreg (s : State) (a : Word) : (s.setPc a).wreg = s.wreg := rfl
@[simp] theorem State.setPc_kpend (s : State) (a : Word) : (s.setPc a).kpend = s.kpend := rfl
@[simp] theorem State.setPc_draws (s : State) (a : Word) : (s.setPc a).draws = s.draws := rfl
@[simp] theorem State.setPc_config (s : State) (a : Word) : (s.setPc a).config = s.config := rfl

/-! ### setIndex -/

@[simp] theorem State.setIndex_mem (s : State) (a : Word) : (s.setIndex a).mem = s.mem := rfl
@[simp] theorem State.setIndex_v (s : State) (a : Word) : (s.setIndex a).v = s.v := rfl
@[simp] theorem State.setIndex_i (s : State) (a : Word) : (s.setIndex a).i = a := rfl
@[simp] theorem State.setIndex_pc (s : State) (a : Word) : (s.setIndex a).pc = s.pc := rfl
@[simp] theorem State.setIndex_stk (s : State) (a : Word) : (s.setIndex a).stk = s.stk := rfl
@[simp] theorem State.setIndex_sp (s : State) (a : Word) : (s.setIndex a).sp = s.sp := rfl
@[simp] theorem State.setIndex_dt (s : State) (a : Word) : (s.setIndex a).dt = s.dt := rfl
@[simp] theorem State.setIndex_st (s : State) (a : Word) : (s.setIndex a).st = s.st := rfl
@[simp] theorem State.setIndex_fb (s : State) (a : Word) : (s.setIndex a).fb = s.fb := rfl
@[simp] theorem State.setIndex_key (s : State) (a : Word) : (s.setIndex a).key = s.key := rfl
@[simp] theorem State.setIndex_run (s : State) (a : Word) : (s.setIndex a).run = s.run := rfl
@[simp] theorem State.setIndex_wreg (s : State) (a : Word) : (s.setIndex a).wreg = s.wreg := rfl
@[simp] theorem State.setIndex_kpend (s : State) (a : Word) : (s.setIndex a).kpend = s.kpend := rfl
@[simp] theorem State.setIndex_draws (s : State) (a : Word) : (s.setIndex a).draws = s.draws := rfl
@[simp] theorem State.setIndex_config (s : State) (a : Word) : (s.setIndex a).config = s.config := rfl

/-! ### setDt -/

@[simp] theorem State.setDt_mem (s : State) (b : Byte) : (s.setDt b).mem = s.mem := rfl
@[simp] theorem State.setDt_v (s : State) (b : Byte) : (s.setDt b).v = s.v := rfl
@[simp] theorem State.setDt_i (s : State) (b : Byte) : (s.setDt b).i = s.i := rfl
@[simp] theorem State.setDt_pc (s : State) (b : Byte) : (s.setDt b).pc = s.pc := rfl
@[simp] theorem State.setDt_stk (s : State) (b : Byte) : (s.setDt b).stk = s.stk := rfl
@[simp] theorem State.setDt_sp (s : State) (b : Byte) : (s.setDt b).sp = s.sp := rfl
@[simp] theorem State.setDt_dt (s : State) (b : Byte) : (s.setDt b).dt = b := rfl
@[simp] theorem State.setDt_st (s : State) (b : Byte) : (s.setDt b).st = s.st := rfl
@[simp] theorem State.setDt_fb (s : State) (b : Byte) : (s.setDt b).fb = s.fb := rfl
@[simp] theorem State.setDt_key (s : State) (b : Byte) : (s.setDt b).key = s.key := rfl
@[simp] theorem State.setDt_run (s : State) (b : Byte) : (s.setDt b).run = s.run := rfl
@[simp] theorem State.setDt_wreg (s : State) (b : Byte) : (s.setDt b).wreg = s.wreg := rfl
@[simp] theorem State.setDt_kpend (s : State) (b : Byte) : (s.setDt b).kpend = s.kpend := rfl
@[simp] theorem State.setDt_draws (s : State) (b : Byte) : (s.setDt b).draws = s.draws := rfl
@[simp] theorem State.setDt_config (s : State) (b : Byte) : (s.setDt b).config = s.config := rfl

/-! ### setSt -/

@[simp] theorem State.setSt_mem (s : State) (b : Byte) : (s.setSt b).mem = s.mem := rfl
@[simp] theorem State.setSt_v (s : State) (b : Byte) : (s.setSt b).v = s.v := rfl
@[simp] theorem State.setSt_i (s : State) (b : Byte) : (s.setSt b).i = s.i := rfl
@[simp] theorem State.setSt_pc (s : State) (b : Byte) : (s.setSt b).pc = s.pc := rfl
@[simp] theorem State.setSt_stk (s : State) (b : Byte) : (s.setSt b).stk = s.stk := rfl
@[simp] theorem State.setSt_sp (s : State) (b : Byte) : (s.setSt b).sp = s.sp := rfl
@[simp] theorem State.setSt_dt (s : State) (b : Byte) : (s.setSt b).dt = s.dt := rfl
@[simp] theorem State.setSt_st (s : State) (b : Byte) : (s.setSt b).st = b := rfl
@[simp] theorem State.setSt_fb (s : State) (b : Byte) : (s.setSt b).fb = s.fb := rfl
@[simp] theorem State.setSt_key (s : State) (b : Byte) : (s.setSt b).key = s.key := rfl
@[simp] theorem State.setSt_run (s : State) (b : Byte) : (s.setSt b).run = s.run := rfl
@[simp] theorem State.setSt_wreg (s : State) (b : Byte) : (s.setSt b).wreg = s.wreg := rfl
@[simp] theorem State.setSt_kpend (s : State) (b : Byte) : (s.setSt b).kpend = s.kpend := rfl
@[simp] theorem State.setSt_draws (s : State) (b : Byte) : (s.setSt b).draws = s.draws := rfl
@[simp] theorem State.setSt_config (s : State) (b : Byte) : (s.setSt b).config = s.config := rfl

/-! ### setMem -/

@[simp] theorem State.setMem_mem (s : State) (m : Memory) : (s.setMem m).mem = m := rfl
@[simp] theorem State.setMem_v (s : State) (m : Memory) : (s.setMem m).v = s.v := rfl
@[simp] theorem State.setMem_i (s : State) (m : Memory) : (s.setMem m).i = s.i := rfl
@[simp] theorem State.setMem_pc (s : State) (m : Memory) : (s.setMem m).pc = s.pc := rfl
@[simp] theorem State.setMem_stk (s : State) (m : Memory) : (s.setMem m).stk = s.stk := rfl
@[simp] theorem State.setMem_sp (s : State) (m : Memory) : (s.setMem m).sp = s.sp := rfl
@[simp] theorem State.setMem_dt (s : State) (m : Memory) : (s.setMem m).dt = s.dt := rfl
@[simp] theorem State.setMem_st (s : State) (m : Memory) : (s.setMem m).st = s.st := rfl
@[simp] theorem State.setMem_fb (s : State) (m : Memory) : (s.setMem m).fb = s.fb := rfl
@[simp] theorem State.setMem_key (s : State) (m : Memory) : (s.setMem m).key = s.key := rfl
@[simp] theorem State.setMem_run (s : State) (m : Memory) : (s.setMem m).run = s.run := rfl
@[simp] theorem State.setMem_wreg (s : State) (m : Memory) : (s.setMem m).wreg = s.wreg := rfl
@[simp] theorem State.setMem_kpend (s : State) (m : Memory) : (s.setMem m).kpend = s.kpend := rfl
@[simp] theorem State.setMem_draws (s : State) (m : Memory) : (s.setMem m).draws = s.draws := rfl
@[simp] theorem State.setMem_config (s : State) (m : Memory) : (s.setMem m).config = s.config := rfl

/-! ### setFb -/

@[simp] theorem State.setFb_mem (s : State) (d : Display) : (s.setFb d).mem = s.mem := rfl
@[simp] theorem State.setFb_v (s : State) (d : Display) : (s.setFb d).v = s.v := rfl
@[simp] theorem State.setFb_i (s : State) (d : Display) : (s.setFb d).i = s.i := rfl
@[simp] theorem State.setFb_pc (s : State) (d : Display) : (s.setFb d).pc = s.pc := rfl
@[simp] theorem State.setFb_stk (s : State) (d : Display) : (s.setFb d).stk = s.stk := rfl
@[simp] theorem State.setFb_sp (s : State) (d : Display) : (s.setFb d).sp = s.sp := rfl
@[simp] theorem State.setFb_dt (s : State) (d : Display) : (s.setFb d).dt = s.dt := rfl
@[simp] theorem State.setFb_st (s : State) (d : Display) : (s.setFb d).st = s.st := rfl
@[simp] theorem State.setFb_fb (s : State) (d : Display) : (s.setFb d).fb = d := rfl
@[simp] theorem State.setFb_key (s : State) (d : Display) : (s.setFb d).key = s.key := rfl
@[simp] theorem State.setFb_run (s : State) (d : Display) : (s.setFb d).run = s.run := rfl
@[simp] theorem State.setFb_wreg (s : State) (d : Display) : (s.setFb d).wreg = s.wreg := rfl
@[simp] theorem State.setFb_kpend (s : State) (d : Display) : (s.setFb d).kpend = s.kpend := rfl
@[simp] theorem State.setFb_draws (s : State) (d : Display) : (s.setFb d).draws = s.draws := rfl
@[simp] theorem State.setFb_config (s : State) (d : Display) : (s.setFb d).config = s.config := rfl

/-! ### setStack -/

@[simp] theorem State.setStack_mem (s : State) (k : Vector Word 16) (n : Fin 17) : (s.setStack k n).mem = s.mem := rfl
@[simp] theorem State.setStack_v (s : State) (k : Vector Word 16) (n : Fin 17) : (s.setStack k n).v = s.v := rfl
@[simp] theorem State.setStack_i (s : State) (k : Vector Word 16) (n : Fin 17) : (s.setStack k n).i = s.i := rfl
@[simp] theorem State.setStack_pc (s : State) (k : Vector Word 16) (n : Fin 17) : (s.setStack k n).pc = s.pc := rfl
@[simp] theorem State.setStack_stk (s : State) (k : Vector Word 16) (n : Fin 17) : (s.setStack k n).stk = k := rfl
@[simp] theorem State.setStack_sp (s : State) (k : Vector Word 16) (n : Fin 17) : (s.setStack k n).sp = n := rfl
@[simp] theorem State.setStack_dt (s : State) (k : Vector Word 16) (n : Fin 17) : (s.setStack k n).dt = s.dt := rfl
@[simp] theorem State.setStack_st (s : State) (k : Vector Word 16) (n : Fin 17) : (s.setStack k n).st = s.st := rfl
@[simp] theorem State.setStack_fb (s : State) (k : Vector Word 16) (n : Fin 17) : (s.setStack k n).fb = s.fb := rfl
@[simp] theorem State.setStack_key (s : State) (k : Vector Word 16) (n : Fin 17) : (s.setStack k n).key = s.key := rfl
@[simp] theorem State.setStack_run (s : State) (k : Vector Word 16) (n : Fin 17) : (s.setStack k n).run = s.run := rfl
@[simp] theorem State.setStack_wreg (s : State) (k : Vector Word 16) (n : Fin 17) : (s.setStack k n).wreg = s.wreg := rfl
@[simp] theorem State.setStack_kpend (s : State) (k : Vector Word 16) (n : Fin 17) : (s.setStack k n).kpend = s.kpend := rfl
@[simp] theorem State.setStack_draws (s : State) (k : Vector Word 16) (n : Fin 17) : (s.setStack k n).draws = s.draws := rfl
@[simp] theorem State.setStack_config (s : State) (k : Vector Word 16) (n : Fin 17) : (s.setStack k n).config = s.config := rfl

/-! ### setKey -/

@[simp] theorem State.setKey_mem (s : State) (k : KeyIdx) (b : Bool) : (s.setKey k b).mem = s.mem := rfl
@[simp] theorem State.setKey_v (s : State) (k : KeyIdx) (b : Bool) : (s.setKey k b).v = s.v := rfl
@[simp] theorem State.setKey_i (s : State) (k : KeyIdx) (b : Bool) : (s.setKey k b).i = s.i := rfl
@[simp] theorem State.setKey_pc (s : State) (k : KeyIdx) (b : Bool) : (s.setKey k b).pc = s.pc := rfl
@[simp] theorem State.setKey_stk (s : State) (k : KeyIdx) (b : Bool) : (s.setKey k b).stk = s.stk := rfl
@[simp] theorem State.setKey_sp (s : State) (k : KeyIdx) (b : Bool) : (s.setKey k b).sp = s.sp := rfl
@[simp] theorem State.setKey_dt (s : State) (k : KeyIdx) (b : Bool) : (s.setKey k b).dt = s.dt := rfl
@[simp] theorem State.setKey_st (s : State) (k : KeyIdx) (b : Bool) : (s.setKey k b).st = s.st := rfl
@[simp] theorem State.setKey_fb (s : State) (k : KeyIdx) (b : Bool) : (s.setKey k b).fb = s.fb := rfl
@[simp] theorem State.setKey_key (s : State) (k : KeyIdx) (b : Bool) : (s.setKey k b).key = s.key.set k.val b k.isLt := rfl
@[simp] theorem State.setKey_run (s : State) (k : KeyIdx) (b : Bool) : (s.setKey k b).run = s.run := rfl
@[simp] theorem State.setKey_wreg (s : State) (k : KeyIdx) (b : Bool) : (s.setKey k b).wreg = s.wreg := rfl
@[simp] theorem State.setKey_kpend (s : State) (k : KeyIdx) (b : Bool) : (s.setKey k b).kpend = s.kpend := rfl
@[simp] theorem State.setKey_draws (s : State) (k : KeyIdx) (b : Bool) : (s.setKey k b).draws = s.draws := rfl
@[simp] theorem State.setKey_config (s : State) (k : KeyIdx) (b : Bool) : (s.setKey k b).config = s.config := rfl

/-! ### setRun -/

@[simp] theorem State.setRun_mem (s : State) (r : RunState) (p : Option KeyIdx) : (s.setRun r p).mem = s.mem := rfl
@[simp] theorem State.setRun_v (s : State) (r : RunState) (p : Option KeyIdx) : (s.setRun r p).v = s.v := rfl
@[simp] theorem State.setRun_i (s : State) (r : RunState) (p : Option KeyIdx) : (s.setRun r p).i = s.i := rfl
@[simp] theorem State.setRun_pc (s : State) (r : RunState) (p : Option KeyIdx) : (s.setRun r p).pc = s.pc := rfl
@[simp] theorem State.setRun_stk (s : State) (r : RunState) (p : Option KeyIdx) : (s.setRun r p).stk = s.stk := rfl
@[simp] theorem State.setRun_sp (s : State) (r : RunState) (p : Option KeyIdx) : (s.setRun r p).sp = s.sp := rfl
@[simp] theorem State.setRun_dt (s : State) (r : RunState) (p : Option KeyIdx) : (s.setRun r p).dt = s.dt := rfl
@[simp] theorem State.setRun_st (s : State) (r : RunState) (p : Option KeyIdx) : (s.setRun r p).st = s.st := rfl
@[simp] theorem State.setRun_fb (s : State) (r : RunState) (p : Option KeyIdx) : (s.setRun r p).fb = s.fb := rfl
@[simp] theorem State.setRun_key (s : State) (r : RunState) (p : Option KeyIdx) : (s.setRun r p).key = s.key := rfl
@[simp] theorem State.setRun_run (s : State) (r : RunState) (p : Option KeyIdx) : (s.setRun r p).run = r := rfl
@[simp] theorem State.setRun_wreg (s : State) (r : RunState) (p : Option KeyIdx) : (s.setRun r p).wreg = s.wreg := rfl
@[simp] theorem State.setRun_kpend (s : State) (r : RunState) (p : Option KeyIdx) : (s.setRun r p).kpend = p := rfl
@[simp] theorem State.setRun_draws (s : State) (r : RunState) (p : Option KeyIdx) : (s.setRun r p).draws = s.draws := rfl
@[simp] theorem State.setRun_config (s : State) (r : RunState) (p : Option KeyIdx) : (s.setRun r p).config = s.config := rfl

/-! ### setWreg -/

@[simp] theorem State.setWreg_mem (s : State) (x : RegIdx) : (s.setWreg x).mem = s.mem := rfl
@[simp] theorem State.setWreg_v (s : State) (x : RegIdx) : (s.setWreg x).v = s.v := rfl
@[simp] theorem State.setWreg_i (s : State) (x : RegIdx) : (s.setWreg x).i = s.i := rfl
@[simp] theorem State.setWreg_pc (s : State) (x : RegIdx) : (s.setWreg x).pc = s.pc := rfl
@[simp] theorem State.setWreg_stk (s : State) (x : RegIdx) : (s.setWreg x).stk = s.stk := rfl
@[simp] theorem State.setWreg_sp (s : State) (x : RegIdx) : (s.setWreg x).sp = s.sp := rfl
@[simp] theorem State.setWreg_dt (s : State) (x : RegIdx) : (s.setWreg x).dt = s.dt := rfl
@[simp] theorem State.setWreg_st (s : State) (x : RegIdx) : (s.setWreg x).st = s.st := rfl
@[simp] theorem State.setWreg_fb (s : State) (x : RegIdx) : (s.setWreg x).fb = s.fb := rfl
@[simp] theorem State.setWreg_key (s : State) (x : RegIdx) : (s.setWreg x).key = s.key := rfl
@[simp] theorem State.setWreg_run (s : State) (x : RegIdx) : (s.setWreg x).run = s.run := rfl
@[simp] theorem State.setWreg_wreg (s : State) (x : RegIdx) : (s.setWreg x).wreg = x := rfl
@[simp] theorem State.setWreg_kpend (s : State) (x : RegIdx) : (s.setWreg x).kpend = s.kpend := rfl
@[simp] theorem State.setWreg_draws (s : State) (x : RegIdx) : (s.setWreg x).draws = s.draws := rfl
@[simp] theorem State.setWreg_config (s : State) (x : RegIdx) : (s.setWreg x).config = s.config := rfl

/-! ### setKpend -/

@[simp] theorem State.setKpend_mem (s : State) (p : Option KeyIdx) : (s.setKpend p).mem = s.mem := rfl
@[simp] theorem State.setKpend_v (s : State) (p : Option KeyIdx) : (s.setKpend p).v = s.v := rfl
@[simp] theorem State.setKpend_i (s : State) (p : Option KeyIdx) : (s.setKpend p).i = s.i := rfl
@[simp] theorem State.setKpend_pc (s : State) (p : Option KeyIdx) : (s.setKpend p).pc = s.pc := rfl
@[simp] theorem State.setKpend_stk (s : State) (p : Option KeyIdx) : (s.setKpend p).stk = s.stk := rfl
@[simp] theorem State.setKpend_sp (s : State) (p : Option KeyIdx) : (s.setKpend p).sp = s.sp := rfl
@[simp] theorem State.setKpend_dt (s : State) (p : Option KeyIdx) : (s.setKpend p).dt = s.dt := rfl
@[simp] theorem State.setKpend_st (s : State) (p : Option KeyIdx) : (s.setKpend p).st = s.st := rfl
@[simp] theorem State.setKpend_fb (s : State) (p : Option KeyIdx) : (s.setKpend p).fb = s.fb := rfl
@[simp] theorem State.setKpend_key (s : State) (p : Option KeyIdx) : (s.setKpend p).key = s.key := rfl
@[simp] theorem State.setKpend_run (s : State) (p : Option KeyIdx) : (s.setKpend p).run = s.run := rfl
@[simp] theorem State.setKpend_wreg (s : State) (p : Option KeyIdx) : (s.setKpend p).wreg = s.wreg := rfl
@[simp] theorem State.setKpend_kpend (s : State) (p : Option KeyIdx) : (s.setKpend p).kpend = p := rfl
@[simp] theorem State.setKpend_draws (s : State) (p : Option KeyIdx) : (s.setKpend p).draws = s.draws := rfl
@[simp] theorem State.setKpend_config (s : State) (p : Option KeyIdx) : (s.setKpend p).config = s.config := rfl

/-! ### bumpDraws -/

@[simp] theorem State.bumpDraws_mem (s : State) : (s.bumpDraws).mem = s.mem := rfl
@[simp] theorem State.bumpDraws_v (s : State) : (s.bumpDraws).v = s.v := rfl
@[simp] theorem State.bumpDraws_i (s : State) : (s.bumpDraws).i = s.i := rfl
@[simp] theorem State.bumpDraws_pc (s : State) : (s.bumpDraws).pc = s.pc := rfl
@[simp] theorem State.bumpDraws_stk (s : State) : (s.bumpDraws).stk = s.stk := rfl
@[simp] theorem State.bumpDraws_sp (s : State) : (s.bumpDraws).sp = s.sp := rfl
@[simp] theorem State.bumpDraws_dt (s : State) : (s.bumpDraws).dt = s.dt := rfl
@[simp] theorem State.bumpDraws_st (s : State) : (s.bumpDraws).st = s.st := rfl
@[simp] theorem State.bumpDraws_fb (s : State) : (s.bumpDraws).fb = s.fb := rfl
@[simp] theorem State.bumpDraws_key (s : State) : (s.bumpDraws).key = s.key := rfl
@[simp] theorem State.bumpDraws_run (s : State) : (s.bumpDraws).run = s.run := rfl
@[simp] theorem State.bumpDraws_wreg (s : State) : (s.bumpDraws).wreg = s.wreg := rfl
@[simp] theorem State.bumpDraws_kpend (s : State) : (s.bumpDraws).kpend = s.kpend := rfl
@[simp] theorem State.bumpDraws_draws (s : State) : (s.bumpDraws).draws = s.draws + 1 := rfl
@[simp] theorem State.bumpDraws_config (s : State) : (s.bumpDraws).config = s.config := rfl

/-! ### advance -/

@[simp] theorem State.advance_mem (s : State) : (s.advance).mem = s.mem := rfl
@[simp] theorem State.advance_v (s : State) : (s.advance).v = s.v := rfl
@[simp] theorem State.advance_i (s : State) : (s.advance).i = s.i := rfl
@[simp] theorem State.advance_pc (s : State) : (s.advance).pc = s.pc + 2 := rfl
@[simp] theorem State.advance_stk (s : State) : (s.advance).stk = s.stk := rfl
@[simp] theorem State.advance_sp (s : State) : (s.advance).sp = s.sp := rfl
@[simp] theorem State.advance_dt (s : State) : (s.advance).dt = s.dt := rfl
@[simp] theorem State.advance_st (s : State) : (s.advance).st = s.st := rfl
@[simp] theorem State.advance_fb (s : State) : (s.advance).fb = s.fb := rfl
@[simp] theorem State.advance_key (s : State) : (s.advance).key = s.key := rfl
@[simp] theorem State.advance_run (s : State) : (s.advance).run = s.run := rfl
@[simp] theorem State.advance_wreg (s : State) : (s.advance).wreg = s.wreg := rfl
@[simp] theorem State.advance_kpend (s : State) : (s.advance).kpend = s.kpend := rfl
@[simp] theorem State.advance_draws (s : State) : (s.advance).draws = s.draws := rfl
@[simp] theorem State.advance_config (s : State) : (s.advance).config = s.config := rfl

/-! ### skipIf -/

@[simp] theorem State.skipIf_mem (s : State) (b : Bool) : (s.skipIf b).mem = s.mem := rfl
@[simp] theorem State.skipIf_v (s : State) (b : Bool) : (s.skipIf b).v = s.v := rfl
@[simp] theorem State.skipIf_i (s : State) (b : Bool) : (s.skipIf b).i = s.i := rfl
@[simp] theorem State.skipIf_pc (s : State) (b : Bool) : (s.skipIf b).pc = if b then s.pc + 4 else s.pc + 2 := rfl
@[simp] theorem State.skipIf_stk (s : State) (b : Bool) : (s.skipIf b).stk = s.stk := rfl
@[simp] theorem State.skipIf_sp (s : State) (b : Bool) : (s.skipIf b).sp = s.sp := rfl
@[simp] theorem State.skipIf_dt (s : State) (b : Bool) : (s.skipIf b).dt = s.dt := rfl
@[simp] theorem State.skipIf_st (s : State) (b : Bool) : (s.skipIf b).st = s.st := rfl
@[simp] theorem State.skipIf_fb (s : State) (b : Bool) : (s.skipIf b).fb = s.fb := rfl
@[simp] theorem State.skipIf_key (s : State) (b : Bool) : (s.skipIf b).key = s.key := rfl
@[simp] theorem State.skipIf_run (s : State) (b : Bool) : (s.skipIf b).run = s.run := rfl
@[simp] theorem State.skipIf_wreg (s : State) (b : Bool) : (s.skipIf b).wreg = s.wreg := rfl
@[simp] theorem State.skipIf_kpend (s : State) (b : Bool) : (s.skipIf b).kpend = s.kpend := rfl
@[simp] theorem State.skipIf_draws (s : State) (b : Bool) : (s.skipIf b).draws = s.draws := rfl
@[simp] theorem State.skipIf_config (s : State) (b : Bool) : (s.skipIf b).config = s.config := rfl

/-! ### writeFlagged -/

@[simp] theorem State.writeFlagged_mem (s : State) (x : RegIdx) (b f : Byte) : (s.writeFlagged x b f).mem = s.mem := rfl
@[simp] theorem State.writeFlagged_i (s : State) (x : RegIdx) (b f : Byte) : (s.writeFlagged x b f).i = s.i := rfl
@[simp] theorem State.writeFlagged_pc (s : State) (x : RegIdx) (b f : Byte) : (s.writeFlagged x b f).pc = s.pc := rfl
@[simp] theorem State.writeFlagged_stk (s : State) (x : RegIdx) (b f : Byte) : (s.writeFlagged x b f).stk = s.stk := rfl
@[simp] theorem State.writeFlagged_sp (s : State) (x : RegIdx) (b f : Byte) : (s.writeFlagged x b f).sp = s.sp := rfl
@[simp] theorem State.writeFlagged_dt (s : State) (x : RegIdx) (b f : Byte) : (s.writeFlagged x b f).dt = s.dt := rfl
@[simp] theorem State.writeFlagged_st (s : State) (x : RegIdx) (b f : Byte) : (s.writeFlagged x b f).st = s.st := rfl
@[simp] theorem State.writeFlagged_fb (s : State) (x : RegIdx) (b f : Byte) : (s.writeFlagged x b f).fb = s.fb := rfl
@[simp] theorem State.writeFlagged_key (s : State) (x : RegIdx) (b f : Byte) : (s.writeFlagged x b f).key = s.key := rfl
@[simp] theorem State.writeFlagged_run (s : State) (x : RegIdx) (b f : Byte) : (s.writeFlagged x b f).run = s.run := rfl
@[simp] theorem State.writeFlagged_wreg (s : State) (x : RegIdx) (b f : Byte) : (s.writeFlagged x b f).wreg = s.wreg := rfl
@[simp] theorem State.writeFlagged_kpend (s : State) (x : RegIdx) (b f : Byte) : (s.writeFlagged x b f).kpend = s.kpend := rfl
@[simp] theorem State.writeFlagged_draws (s : State) (x : RegIdx) (b f : Byte) : (s.writeFlagged x b f).draws = s.draws := rfl
@[simp] theorem State.writeFlagged_config (s : State) (x : RegIdx) (b f : Byte) : (s.writeFlagged x b f).config = s.config := rfl

/-! ### enterWait -/

@[simp] theorem State.enterWait_mem (s : State) (x : RegIdx) : (s.enterWait x).mem = s.mem := rfl
@[simp] theorem State.enterWait_v (s : State) (x : RegIdx) : (s.enterWait x).v = s.v := rfl
@[simp] theorem State.enterWait_i (s : State) (x : RegIdx) : (s.enterWait x).i = s.i := rfl
@[simp] theorem State.enterWait_pc (s : State) (x : RegIdx) : (s.enterWait x).pc = s.pc := rfl
@[simp] theorem State.enterWait_stk (s : State) (x : RegIdx) : (s.enterWait x).stk = s.stk := rfl
@[simp] theorem State.enterWait_sp (s : State) (x : RegIdx) : (s.enterWait x).sp = s.sp := rfl
@[simp] theorem State.enterWait_dt (s : State) (x : RegIdx) : (s.enterWait x).dt = s.dt := rfl
@[simp] theorem State.enterWait_st (s : State) (x : RegIdx) : (s.enterWait x).st = s.st := rfl
@[simp] theorem State.enterWait_fb (s : State) (x : RegIdx) : (s.enterWait x).fb = s.fb := rfl
@[simp] theorem State.enterWait_key (s : State) (x : RegIdx) : (s.enterWait x).key = s.key := rfl
@[simp] theorem State.enterWait_run (s : State) (x : RegIdx) : (s.enterWait x).run = .awaitingKey := rfl
@[simp] theorem State.enterWait_wreg (s : State) (x : RegIdx) : (s.enterWait x).wreg = x := rfl
@[simp] theorem State.enterWait_kpend (s : State) (x : RegIdx) : (s.enterWait x).kpend = none := rfl
@[simp] theorem State.enterWait_draws (s : State) (x : RegIdx) : (s.enterWait x).draws = s.draws := rfl
@[simp] theorem State.enterWait_config (s : State) (x : RegIdx) : (s.enterWait x).config = s.config := rfl

/-! ### Registers, keys and memory reads after an update -/

@[simp] theorem State.setReg_memRead (s : State) (x : RegIdx) (b : Byte) (addr : Nat) : memRead (s.setReg x b) addr = memRead s addr := rfl
@[simp] theorem State.setReg_pressed (s : State) (x : RegIdx) (b : Byte) (q : KeyIdx) : (s.setReg x b).pressed q = s.pressed q := rfl
@[simp] theorem State.setRegs_memRead (s : State) (w : Vector Byte 16) (addr : Nat) : memRead (s.setRegs w) addr = memRead s addr := rfl
@[simp] theorem State.setRegs_pressed (s : State) (w : Vector Byte 16) (q : KeyIdx) : (s.setRegs w).pressed q = s.pressed q := rfl
@[simp] theorem State.setPc_reg (s : State) (a : Word) (r : RegIdx) : (s.setPc a).reg r = s.reg r := rfl
@[simp] theorem State.setPc_memRead (s : State) (a : Word) (addr : Nat) : memRead (s.setPc a) addr = memRead s addr := rfl
@[simp] theorem State.setPc_pressed (s : State) (a : Word) (q : KeyIdx) : (s.setPc a).pressed q = s.pressed q := rfl
@[simp] theorem State.setIndex_reg (s : State) (a : Word) (r : RegIdx) : (s.setIndex a).reg r = s.reg r := rfl
@[simp] theorem State.setIndex_memRead (s : State) (a : Word) (addr : Nat) : memRead (s.setIndex a) addr = memRead s addr := rfl
@[simp] theorem State.setIndex_pressed (s : State) (a : Word) (q : KeyIdx) : (s.setIndex a).pressed q = s.pressed q := rfl
@[simp] theorem State.setDt_reg (s : State) (b : Byte) (r : RegIdx) : (s.setDt b).reg r = s.reg r := rfl
@[simp] theorem State.setDt_memRead (s : State) (b : Byte) (addr : Nat) : memRead (s.setDt b) addr = memRead s addr := rfl
@[simp] theorem State.setDt_pressed (s : State) (b : Byte) (q : KeyIdx) : (s.setDt b).pressed q = s.pressed q := rfl
@[simp] theorem State.setSt_reg (s : State) (b : Byte) (r : RegIdx) : (s.setSt b).reg r = s.reg r := rfl
@[simp] theorem State.setSt_memRead (s : State) (b : Byte) (addr : Nat) : memRead (s.setSt b) addr = memRead s addr := rfl
@[simp] theorem State.setSt_pressed (s : State) (b : Byte) (q : KeyIdx) : (s.setSt b).pressed q = s.pressed q := rfl
@[simp] theorem State.setMem_reg (s : State) (m : Memory) (r : RegIdx) : (s.setMem m).reg r = s.reg r := rfl
@[simp] theorem State.setMem_pressed (s : State) (m : Memory) (q : KeyIdx) : (s.setMem m).pressed q = s.pressed q := rfl
@[simp] theorem State.setFb_reg (s : State) (d : Display) (r : RegIdx) : (s.setFb d).reg r = s.reg r := rfl
@[simp] theorem State.setFb_memRead (s : State) (d : Display) (addr : Nat) : memRead (s.setFb d) addr = memRead s addr := rfl
@[simp] theorem State.setFb_pressed (s : State) (d : Display) (q : KeyIdx) : (s.setFb d).pressed q = s.pressed q := rfl
@[simp] theorem State.setStack_reg (s : State) (k : Vector Word 16) (n : Fin 17) (r : RegIdx) : (s.setStack k n).reg r = s.reg r := rfl
@[simp] theorem State.setStack_memRead (s : State) (k : Vector Word 16) (n : Fin 17) (addr : Nat) : memRead (s.setStack k n) addr = memRead s addr := rfl
@[simp] theorem State.setStack_pressed (s : State) (k : Vector Word 16) (n : Fin 17) (q : KeyIdx) : (s.setStack k n).pressed q = s.pressed q := rfl
@[simp] theorem State.setKey_reg (s : State) (k : KeyIdx) (b : Bool) (r : RegIdx) : (s.setKey k b).reg r = s.reg r := rfl
@[simp] theorem State.setKey_memRead (s : State) (k : KeyIdx) (b : Bool) (addr : Nat) : memRead (s.setKey k b) addr = memRead s addr := rfl
@[simp] theorem State.setRun_reg (s : State) (u : RunState) (p : Option KeyIdx) (r : RegIdx) : (s.setRun u p).reg r = s.reg r := rfl
@[simp] theorem State.setRun_memRead (s : State) (r : RunState) (p : Option KeyIdx) (addr : Nat) : memRead (s.setRun r p) addr = memRead s addr := rfl
@[simp] theorem State.setRun_pressed (s : State) (r : RunState) (p : Option KeyIdx) (q : KeyIdx) : (s.setRun r p).pressed q = s.pressed q := rfl
@[simp] theorem State.setWreg_reg (s : State) (x : RegIdx) (r : RegIdx) : (s.setWreg x).reg r = s.reg r := rfl
@[simp] theorem State.setWreg_memRead (s : State) (x : RegIdx) (addr : Nat) : memRead (s.setWreg x) addr = memRead s addr := rfl
@[simp] theorem State.setWreg_pressed (s : State) (x : RegIdx) (q : KeyIdx) : (s.setWreg x).pressed q = s.pressed q := rfl
@[simp] theorem State.setKpend_reg (s : State) (p : Option KeyIdx) (r : RegIdx) : (s.setKpend p).reg r = s.reg r := rfl
@[simp] theorem State.setKpend_memRead (s : State) (p : Option KeyIdx) (addr : Nat) : memRead (s.setKpend p) addr = memRead s addr := rfl
@[simp] theorem State.setKpend_pressed (s : State) (p : Option KeyIdx) (q : KeyIdx) : (s.setKpend p).pressed q = s.pressed q := rfl
@[simp] theorem State.bumpDraws_reg (s : State) (r : RegIdx) : (s.bumpDraws).reg r = s.reg r := rfl
@[simp] theorem State.bumpDraws_memRead (s : State) (addr : Nat) : memRead (s.bumpDraws) addr = memRead s addr := rfl
@[simp] theorem State.bumpDraws_pressed (s : State) (q : KeyIdx) : (s.bumpDraws).pressed q = s.pressed q := rfl
@[simp] theorem State.advance_reg (s : State) (r : RegIdx) : (s.advance).reg r = s.reg r := rfl
@[simp] theorem State.advance_memRead (s : State) (addr : Nat) : memRead (s.advance) addr = memRead s addr := rfl
@[simp] theorem State.advance_pressed (s : State) (q : KeyIdx) : (s.advance).pressed q = s.pressed q := rfl
@[simp] theorem State.skipIf_reg (s : State) (b : Bool) (r : RegIdx) : (s.skipIf b).reg r = s.reg r := rfl
@[simp] theorem State.skipIf_memRead (s : State) (b : Bool) (addr : Nat) : memRead (s.skipIf b) addr = memRead s addr := rfl
@[simp] theorem State.skipIf_pressed (s : State) (b : Bool) (q : KeyIdx) : (s.skipIf b).pressed q = s.pressed q := rfl
@[simp] theorem State.writeFlagged_memRead (s : State) (x : RegIdx) (b f : Byte) (addr : Nat) : memRead (s.writeFlagged x b f) addr = memRead s addr := rfl
@[simp] theorem State.writeFlagged_pressed (s : State) (x : RegIdx) (b f : Byte) (q : KeyIdx) : (s.writeFlagged x b f).pressed q = s.pressed q := rfl
@[simp] theorem State.enterWait_reg (s : State) (x : RegIdx) (r : RegIdx) : (s.enterWait x).reg r = s.reg r := rfl
@[simp] theorem State.enterWait_memRead (s : State) (x : RegIdx) (addr : Nat) : memRead (s.enterWait x) addr = memRead s addr := rfl
@[simp] theorem State.enterWait_pressed (s : State) (x : RegIdx) (q : KeyIdx) : (s.enterWait x).pressed q = s.pressed q := rfl

@[simp] theorem State.setReg_reg (s : State) (x r : RegIdx) (b : Byte) :
    (s.setReg x b).reg r = if r = x then b else s.reg r := by
  simp only [State.reg, State.setReg_v, Vector.getElem_set, Fin.ext_iff, eq_comm]

@[simp] theorem State.setRegs_reg (s : State) (w : Vector Byte 16) (r : RegIdx) :
    (s.setRegs w).reg r = w[r.val] := rfl

/-- After a flagged write V[15] is the flag, V[x] the result if x is not 15, the rest as before (10_state.md R25). -/
@[simp] theorem State.writeFlagged_reg (s : State) (x r : RegIdx) (b f : Byte) :
    (s.writeFlagged x b f).reg r = if r = 15 then f else if r = x then b else s.reg r := by
  simp only [State.writeFlagged, State.setReg_reg]

@[simp] theorem State.setKey_pressed (s : State) (k q : KeyIdx) (b : Bool) :
    (s.setKey k b).pressed q = if q = k then b else s.pressed q := by
  simp only [State.pressed, State.setKey_key, Vector.getElem_set, Fin.ext_iff, eq_comm]

@[simp] theorem State.setMem_memRead (s : State) (m : Memory) (addr : Nat) :
    memRead (s.setMem m) addr = Memory.read s.config.font m addr := rfl

/-! ### The state after reset -/

@[simp] theorem resetWith_reg (c : Config) (n : Nat) (r : RegIdx) : (State.resetWith c n).reg r = 0 := by
  simp only [State.reg, State.resetWith, Vector.getElem_replicate]

@[simp] theorem resetWith_memRead (c : Config) (n addr : Nat) :
    memRead (State.resetWith c n) addr = Memory.unlisted c.font (wrapAddr addr) := rfl

end Sys2Proof.Machine
end

