-- ==== Sys2Proof/Laws/Memory.lean ====
section
/-! SUPPORT. What the memory operations do to a read of any address, and that each keeps the canonical form. -/

namespace Sys2Proof.Machine

/-! ### One listed byte -/

theorem Memory.lookup_insert (m : Memory) (a a' : Nat) (b : Byte) :
    Memory.lookup (Memory.insert a b m) a' = if a = a' then some b else Memory.lookup m a' := by
  induction m with
  | nil => simp [Memory.insert, Memory.lookup]
  | cons c rest ih =>
    simp only [Memory.insert]
    split
    · simp [Memory.lookup]
    · split
      · next h => subst h; simp only [Memory.lookup]; split <;> simp_all
      · simp only [Memory.lookup, ih]; split <;> simp_all

theorem Memory.lookup_erase (m : Memory) (a a' : Nat) :
    Memory.lookup (Memory.erase a m) a' = if a = a' then none else Memory.lookup m a' := by
  induction m with
  | nil => simp [Memory.erase, Memory.lookup]
  | cons c rest ih =>
    simp only [Memory.erase]
    split
    · next h => rw [ih]; simp only [Memory.lookup, h]; split <;> simp_all
    · next h =>
      simp only [Memory.lookup, ih]
      by_cases h' : c.1 = a'
      · simp [h', show a ≠ a' from fun e => h (h'.trans e.symm)]
      · simp [h']

/-! ### Reads -/

theorem inFontRegion_congr {a a' : Nat} (h : wrapAddr a = wrapAddr a') : inFontRegion a = inFontRegion a' := by
  simp only [inFontRegion, h]

@[simp] theorem wrapAddr_wrapAddr (a : Nat) : wrapAddr (wrapAddr a) = wrapAddr a := Nat.mod_mod a 0x1000

theorem wrapAddr_lt (a : Nat) : wrapAddr a < 0x1000 := Nat.mod_lt a (by decide)

/-- A read sees the wrapped address only (20_memory.md R51). -/
theorem Memory.read_wrapAddr (font : Vector Byte 80) (m : Memory) (a : Nat) :
    Memory.read font m (wrapAddr a) = Memory.read font m a := by
  simp only [Memory.read, wrapAddr_wrapAddr]

/-- A read after a write in any region (20_memory.md R62). -/
theorem Memory.read_poke (font : Vector Byte 80) (m : Memory) (a a' : Nat) (b : Byte) :
    Memory.read font (Memory.poke font m a b) a' = if wrapAddr a = wrapAddr a' then b else Memory.read font m a' := by
  simp only [Memory.read, Memory.poke]
  split
  · next hb => rw [Memory.lookup_erase]; split <;> simp_all
  · rw [Memory.lookup_insert]; split <;> simp_all

/-- A read after a store: the byte stored, unless the address is in the font region (20_memory.md R54). -/
theorem Memory.read_store (font : Vector Byte 80) (m : Memory) (a a' : Nat) (b : Byte) :
    Memory.read font (Memory.store font m a b) a' =
      if wrapAddr a = wrapAddr a' ∧ inFontRegion a' = false then b else Memory.read font m a' := by
  unfold Memory.store
  by_cases hw : wrapAddr a = wrapAddr a'
  · cases hf : inFontRegion a' <;> simp [inFontRegion_congr hw, hf, Memory.read_poke, hw]
  · cases inFontRegion a <;> simp [Memory.read_poke, hw]

/-- No store is seen in the font region (20_memory.md R54). -/
theorem Memory.read_store_font (font : Vector Byte 80) (m : Memory) (a a' : Nat) (b : Byte)
    (h : inFontRegion a' = true) : Memory.read font (Memory.store font m a b) a' = Memory.read font m a' := by
  rw [Memory.read_store, if_neg (by simp [h])]

/-! ### The canonical form -/

theorem Memory.mem_erase (m : Memory) (a : Nat) (c : Host.Cell) (h : c ∈ Memory.erase a m) : c ∈ m := by
  induction m with
  | nil => simp [Memory.erase] at h
  | cons d rest ih =>
    simp only [Memory.erase] at h
    split at h
    · exact List.mem_cons_of_mem d (ih h)
    · rcases List.mem_cons.mp h with rfl | h'
      · exact List.mem_cons_self
      · exact List.mem_cons_of_mem d (ih h')

theorem Memory.mem_insert (m : Memory) (a : Nat) (b : Byte) (c : Host.Cell) (h : c ∈ Memory.insert a b m) :
    c = (a, b) ∨ c ∈ m := by
  induction m with
  | nil => simpa [Memory.insert] using h
  | cons d rest ih =>
    simp only [Memory.insert] at h
    split at h
    · simpa using h
    · split at h
      · rcases List.mem_cons.mp h with h' | h'
        · exact .inl h'
        · exact .inr (List.mem_cons_of_mem d h')
      · rcases List.mem_cons.mp h with h' | h'
        · exact .inr (by simp [h'])
        · exact (ih h').imp id (List.mem_cons_of_mem d)

theorem Memory.erase_sorted (m : Memory) (a : Nat) (h : m.Pairwise (fun c d => c.1 < d.1)) :
    (Memory.erase a m).Pairwise (fun c d => c.1 < d.1) := by
  induction m with
  | nil => simp [Memory.erase]
  | cons d rest ih =>
    rw [List.pairwise_cons] at h
    simp only [Memory.erase]
    split
    · exact ih h.2
    · exact List.pairwise_cons.mpr ⟨fun c hc => h.1 c (Memory.mem_erase rest a c hc), ih h.2⟩

theorem Memory.insert_sorted (m : Memory) (a : Nat) (b : Byte) (h : m.Pairwise (fun c d => c.1 < d.1)) :
    (Memory.insert a b m).Pairwise (fun c d => c.1 < d.1) := by
  induction m with
  | nil => simp [Memory.insert]
  | cons d rest ih =>
    have hd := List.pairwise_cons.mp h
    simp only [Memory.insert]
    split
    · next hlt =>
      refine List.pairwise_cons.mpr ⟨fun c hc => ?_, h⟩
      rcases List.mem_cons.mp hc with rfl | hc
      · exact hlt
      · exact Nat.lt_trans hlt (hd.1 c hc)
    · split
      · next heq => exact List.pairwise_cons.mpr ⟨fun c hc => heq ▸ hd.1 c hc, hd.2⟩
      · next hlt hne =>
        refine List.pairwise_cons.mpr ⟨fun c hc => ?_, ih hd.2⟩
        rcases Memory.mem_insert rest a b c hc with rfl | hc
        · exact Nat.lt_of_le_of_ne (Nat.le_of_not_lt hlt) (fun e => hne e.symm)
        · exact hd.1 c hc

/-- A write in any region keeps the canonical form. -/
theorem Memory.poke_wf (font : Vector Byte 80) (m : Memory) (a : Nat) (b : Byte) (h : Memory.wf font m) :
    Memory.wf font (Memory.poke font m a b) := by
  unfold Memory.poke
  split
  · exact ⟨Memory.erase_sorted m _ h.1, fun c hc => h.2 c (Memory.mem_erase m _ c hc)⟩
  · next hb =>
    refine ⟨Memory.insert_sorted m _ b h.1, fun c hc => ?_⟩
    rcases Memory.mem_insert m _ b c hc with rfl | hc
    · exact ⟨wrapAddr_lt a, hb⟩
    · exact h.2 c hc

/-- A store keeps the canonical form. -/
theorem Memory.store_wf (font : Vector Byte 80) (m : Memory) (a : Nat) (b : Byte) (h : Memory.wf font m) :
    Memory.wf font (Memory.store font m a b) := by
  unfold Memory.store
  split
  · exact h
  · exact Memory.poke_wf font m a b h

/-- A run of bytes keeps the canonical form. -/
theorem Memory.pokeList_wf (font : Vector Byte 80) (bs : List Byte) (m : Memory) (a : Nat) (h : Memory.wf font m) :
    Memory.wf font (Memory.pokeList font m a bs) := by
  induction bs generalizing m a with
  | nil => exact h
  | cons b bs ih => exact ih _ _ (Memory.poke_wf font m a b h)

/-- A read after a run of at most 0x1000 bytes: the byte of the run at the address's distance from the start, or the
byte read before (70_reset_and_hazards.md R193, R194). -/
theorem Memory.read_pokeList (font : Vector Byte 80) (bs : List Byte) (m : Memory) (a a' : Nat)
    (hfit : a + bs.length ≤ 0x1000) :
    Memory.read font (Memory.pokeList font m a bs) a' =
      if h : a ≤ wrapAddr a' ∧ wrapAddr a' < a + bs.length then bs[wrapAddr a' - a]'(by omega)
      else Memory.read font m a' := by
  induction bs generalizing m a with
  | nil => simp [Memory.pokeList]
  | cons b bs ih =>
    simp only [List.length_cons] at hfit
    have hwa : wrapAddr a = a := Nat.mod_eq_of_lt (by omega)
    simp only [Memory.pokeList, ih _ (a + 1) (by omega), Memory.read_poke, hwa, List.length_cons]
    by_cases h0 : a = wrapAddr a'
    · rw [dif_neg (by omega), dif_pos (by omega), if_pos h0]; simp [← h0]
    · by_cases h1 : a + 1 ≤ wrapAddr a' ∧ wrapAddr a' < a + 1 + bs.length
      · rw [dif_pos h1, dif_pos (by omega)]
        have : wrapAddr a' - a = (wrapAddr a' - (a + 1)) + 1 := by omega
        simp [this]
      · rw [dif_neg h1, dif_neg (by omega), if_neg h0]

end Sys2Proof.Machine
end

