-- ==== Sys2Proof/Laws/Ops.lean ====
section
/-! SUPPORT. What each shared operation does: the stack, the register ranges, the blit, the key wait, the fetch. -/

namespace Sys2Proof.Machine

/-! ### The Call Stack -/

/-- A push ends in a state exactly when SP < 16, and then writes the free slot and counts it (10_state.md R33). -/
theorem State.push_spec (s t : State) (a : Word) :
    s.push a = some t ↔ ∃ h : s.sp.val < 16, t = s.setStack (s.stk.set s.sp.val a h) ⟨s.sp.val + 1, by omega⟩ := by
  unfold State.push
  split
  · next h => exact ⟨fun e => ⟨h, (Option.some.inj e).symm⟩, fun ⟨_, e⟩ => by rw [e]⟩
  · next h => exact ⟨fun e => by simp at e, fun ⟨h', _⟩ => absurd h' h⟩

theorem State.push_full (s : State) (a : Word) (h : s.sp.val = 16) : s.push a = none := by
  simp [State.push, h]

/-- A pop ends in a value exactly when SP > 0, and then uncounts the top slot and keeps every slot (10_state.md R33). -/
theorem State.pop_spec (s t : State) (a : Word) :
    s.pop = some (a, t) ↔ ∃ h : 0 < s.sp.val,
      a = s.stk[s.sp.val - 1]'(by have := s.sp.isLt; omega) ∧
      t = s.setStack s.stk ⟨s.sp.val - 1, by have := s.sp.isLt; omega⟩ := by
  unfold State.pop
  split
  · next h =>
    refine ⟨fun e => ⟨h, ?_⟩, fun ⟨_, ea, et⟩ => by rw [ea, et]⟩
    have e' := Prod.mk.inj (Option.some.inj e)
    exact ⟨e'.1.symm, e'.2.symm⟩
  · next h => exact ⟨fun e => by simp at e, fun ⟨h', _⟩ => absurd h' h⟩

theorem State.pop_empty (s : State) (h : s.sp.val = 0) : s.pop = none := by
  simp [State.pop, h]

/-! ### Register ranges -/

theorem wrapAddr_add_inj {i j k : Nat} (hj : j < 0x1000) (hk : k < 0x1000) (h : wrapAddr (i + j) = wrapAddr (i + k)) :
    j = k := by
  simp only [wrapAddr] at h; omega

/-- A byte that Fx55 stores to (43_index_memory.md R134). -/
theorem read_storeRegs_hit (s : State) (k : Nat) (j : RegIdx) (hk : k ≤ 16) (hj : j.val < k)
    (hf : inFontRegion (s.i.toNat + j.val) = false) :
    Memory.read s.config.font (storeRegs s k) (s.i.toNat + j.val) = s.reg j := by
  induction k with
  | zero => omega
  | succ k ih =>
    rw [storeRegs, Memory.read_store]
    by_cases hjk : j.val = k
    · have : Fin.ofNat 16 k = j := by ext; simp [Fin.ofNat]; omega
      rw [hjk] at hf ⊢
      rw [if_pos ⟨rfl, hf⟩, this]
    · rw [if_neg (fun h => hjk (wrapAddr_add_inj (by omega) (by omega) h.1).symm), ih (by omega) (by omega)]

/-- A byte that Fx55 does not store to, or that the font region keeps (43_index_memory.md R134). -/
theorem read_storeRegs_miss (s : State) (k a : Nat)
    (h : inFontRegion a = true ∨ ∀ j < k, wrapAddr (s.i.toNat + j) ≠ wrapAddr a) :
    Memory.read s.config.font (storeRegs s k) a = Memory.read s.config.font s.mem a := by
  induction k with
  | zero => rfl
  | succ k ih =>
    rw [storeRegs, Memory.read_store, if_neg, ih (h.imp id (fun h j hj => h j (by omega)))]
    rintro ⟨hw, hf⟩
    rcases h with h | h
    · simp [h] at hf
    · exact h k (by omega) hw

theorem storeRegs_wf (s : State) (k : Nat) (h : Memory.wf s.config.font s.mem) :
    Memory.wf s.config.font (storeRegs s k) := by
  induction k with
  | zero => exact h
  | succ k ih => exact Memory.store_wf _ _ _ _ ih

/-- The registers after Fx65 (43_index_memory.md R135). -/
theorem getElem_loadRegs (s : State) (k : Nat) (r : RegIdx) (hk : k ≤ 16) :
    (loadRegs s k)[r.val] = if r.val < k then memRead s (s.i.toNat + r.val) else s.reg r := by
  induction k with
  | zero => rfl
  | succ k ih =>
    have hk' : (Fin.ofNat 16 k).val = k := by simp [Fin.ofNat]; omega
    simp only [loadRegs, Vector.getElem_set, hk']
    by_cases h : k = r.val
    · subst h; simp
    · rw [if_neg h, ih (by omega)]
      by_cases h2 : r.val < k
      · rw [if_pos h2, if_pos (by omega)]
      · rw [if_neg h2, if_neg (by omega)]

/-! ### The blit -/

@[simp] theorem Display.pixel_clear (x : Fin 64) (y : Fin 32) : Display.clear.pixel x y = false := by
  simp [Display.pixel, Display.clear]

theorem Display.pixel_flip (d : Display) (x px : Fin 64) (y py : Fin 32) :
    (d.flip x y).pixel px py = (d.pixel px py ^^ decide (px = x ∧ py = y)) := by
  simp only [Display.pixel, Display.flip]
  by_cases hy : y.val = py.val
  · have hy' : y = py := Fin.ext hy
    subst hy'
    by_cases hx : x.val = px.val
    · have hx' : x = px := Fin.ext hx
      subst hx'
      simp
    · have hx' : px ≠ x := fun e => hx (by rw [e])
      simp [hx, hx']
  · have hy' : py ≠ y := fun e => hy (by rw [e])
    simp [hy, hy']

/-- The pixels after one sprite row: those under a 1 bit are inverted (44_display.md R140). -/
theorem pixel_blitRow (b : Byte) (vx : Nat) (y : Fin 32) (d : Display × Bool) (k : Nat) (hk : k ≤ 8)
    (px : Fin 64) (py : Fin 32) :
    (blitRow b vx y d k).1.pixel px py =
      (d.1.pixel px py ^^ decide (py = y ∧ ∃ c < k, px.val = (vx + c) % 64 ∧ spriteBit b c = true)) := by
  induction k with
  | zero => simp [blitRow]
  | succ k ih =>
    have hdist : ∀ c < k, px.val = (vx + k) % 64 → px.val ≠ (vx + c) % 64 := by omega
    simp only [blitRow, blitPixel]
    by_cases hb : spriteBit b k = true
    · rw [if_pos hb, Display.pixel_flip, ih (by omega), Bool.xor_assoc]
      congr 1
      by_cases hy : py = y
      · by_cases hx : px.val = (vx + k) % 64
        · have h1 : ¬ ∃ c < k, px.val = (vx + c) % 64 ∧ spriteBit b c = true :=
            fun ⟨c, hc, e, _⟩ => hdist c hc hx e
          have h2 : ∃ c < k + 1, px.val = (vx + c) % 64 ∧ spriteBit b c = true := ⟨k, by omega, hx, hb⟩
          have h3 : px = Fin.ofNat 64 (vx + k) := Fin.ext hx
          rw [decide_eq_false (fun h => h1 h.2), decide_eq_true ⟨h3, hy⟩, decide_eq_true ⟨hy, h2⟩]; rfl
        · have h3 : px ≠ Fin.ofNat 64 (vx + k) := fun e => hx (by rw [e]; rfl)
          rw [decide_eq_false (fun h : px = Fin.ofNat 64 (vx + k) ∧ py = y => h3 h.1), Bool.xor_false]
          refine decide_eq_decide.mpr (and_congr_right fun _ => ⟨fun ⟨c, hc, h⟩ => ⟨c, by omega, h⟩, fun ⟨c, hc, h⟩ => ?_⟩)
          rcases Nat.lt_succ_iff_lt_or_eq.mp hc with hc | rfl
          · exact ⟨c, hc, h⟩
          · exact absurd h.1 hx
      · simp [hy]
    · rw [if_neg hb, ih (by omega)]
      congr 1
      refine decide_eq_decide.mpr (and_congr_right fun _ => ⟨fun ⟨c, hc, h⟩ => ⟨c, by omega, h⟩, fun ⟨c, hc, h⟩ => ?_⟩)
      rcases Nat.lt_succ_iff_lt_or_eq.mp hc with hc | rfl
      · exact ⟨c, hc, h⟩
      · exact absurd h.2 hb

/-- The collision after one sprite row: it was reported before, or some 1 bit met a set pixel (44_display.md R140). -/
theorem collision_blitRow (b : Byte) (vx : Nat) (y : Fin 32) (d : Display × Bool) (k : Nat) (hk : k ≤ 8) :
    (blitRow b vx y d k).2 =
      (d.2 || decide (∃ c < k, spriteBit b c = true ∧ d.1.pixel (Fin.ofNat 64 (vx + c)) y = true)) := by
  induction k with
  | zero => simp [blitRow]
  | succ k ih =>
    have hpix : (blitRow b vx y d k).1.pixel (Fin.ofNat 64 (vx + k)) y = d.1.pixel (Fin.ofNat 64 (vx + k)) y := by
      rw [pixel_blitRow b vx y d k (by omega), decide_eq_false, Bool.xor_false]
      rintro ⟨_, c, hc, e, _⟩
      simp [Fin.ofNat] at e; omega
    simp only [blitRow, blitPixel]
    by_cases hb : spriteBit b k = true
    · rw [if_pos hb]
      simp only [ih (by omega : k ≤ 8), hpix, Bool.or_assoc]
      congr 1
      rw [Bool.eq_iff_iff]
      simp only [Bool.or_eq_true, decide_eq_true_eq]
      constructor
      · rintro (⟨c, hc, h⟩ | h)
        · exact ⟨c, by omega, h⟩
        · exact ⟨k, by omega, hb, h⟩
      · rintro ⟨c, hc, h⟩
        rcases Nat.lt_succ_iff_lt_or_eq.mp hc with hc | rfl
        · exact .inl ⟨c, hc, h⟩
        · exact .inr h.2
    · rw [if_neg hb, ih (by omega)]
      congr 1
      refine decide_eq_decide.mpr ⟨fun ⟨c, hc, h⟩ => ⟨c, by omega, h⟩, fun ⟨c, hc, h⟩ => ?_⟩
      rcases Nat.lt_succ_iff_lt_or_eq.mp hc with hc | rfl
      · exact ⟨c, hc, h⟩
      · exact absurd h.1 hb

/-- After k sprite rows a pixel has changed exactly when a 1 bit of one of them lies over it (44_display.md R140, R142). -/
theorem pixel_blitSprite (s : State) (vx vy k : Nat) (hk : k ≤ 32) (px : Fin 64) (py : Fin 32) :
    (blitSprite s vx vy k).1.pixel px py ≠ s.fb.pixel px py ↔
      ∃ r < k, py.val = (vy + r) % 32 ∧
        ∃ c < 8, px.val = (vx + c) % 64 ∧ spriteBit (memRead s (s.i.toNat + r)) c = true := by
  induction k with
  | zero => simp [blitSprite]
  | succ k ih =>
    rw [blitSprite, pixel_blitRow _ _ _ _ 8 (by omega)]
    have ih := ih (by omega)
    have heq : (py = Fin.ofNat 32 (vy + k)) ↔ py.val = (vy + k) % 32 := by
      rw [Fin.ext_iff]; rfl
    rw [decide_eq_decide.mpr (and_congr_left' heq)]
    by_cases hrow : py.val = (vy + k) % 32 ∧
        ∃ c < 8, px.val = (vx + c) % 64 ∧ spriteBit (memRead s (s.i.toNat + k)) c = true
    · have hsame : (blitSprite s vx vy k).1.pixel px py = s.fb.pixel px py := by
        by_contra hne
        obtain ⟨r, hr, e, _⟩ := ih.mp hne
        omega
      rw [hsame, decide_eq_true hrow]
      exact ⟨fun _ => ⟨k, by omega, hrow⟩, fun _ => by simp⟩
    · rw [decide_eq_false hrow, Bool.xor_false, ih]
      refine ⟨fun ⟨r, hr, h⟩ => ⟨r, by omega, h⟩, fun ⟨r, hr, h⟩ => ?_⟩
      rcases Nat.lt_succ_iff_lt_or_eq.mp hr with hr | rfl
      · exact ⟨r, hr, h⟩
      · exact absurd h hrow

/-- The collision after k sprite rows: some 1 bit met a pixel that was set before the blit (44_display.md R140). -/
theorem collision_blitSprite (s : State) (vx vy k : Nat) (hk : k ≤ 32) :
    (blitSprite s vx vy k).2 = true ↔
      ∃ r < k, ∃ c < 8, spriteBit (memRead s (s.i.toNat + r)) c = true ∧
        s.fb.pixel (Fin.ofNat 64 (vx + c)) (Fin.ofNat 32 (vy + r)) = true := by
  induction k with
  | zero => simp [blitSprite]
  | succ k ih =>
    have hpix : ∀ c, (blitSprite s vx vy k).1.pixel (Fin.ofNat 64 (vx + c)) (Fin.ofNat 32 (vy + k)) =
        s.fb.pixel (Fin.ofNat 64 (vx + c)) (Fin.ofNat 32 (vy + k)) := fun c => by
      by_contra hne
      obtain ⟨r, hr, e, _⟩ := (pixel_blitSprite s vx vy k (by omega) _ _).mp hne
      simp [Fin.ofNat] at e; omega
    rw [blitSprite, collision_blitRow _ _ _ _ 8 (by omega), Bool.or_eq_true, ih (by omega)]
    simp only [hpix, decide_eq_true_eq]
    constructor
    · rintro (⟨r, hr, h⟩ | h)
      · exact ⟨r, by omega, h⟩
      · exact ⟨k, by omega, h⟩
    · rintro ⟨r, hr, h⟩
      rcases Nat.lt_succ_iff_lt_or_eq.mp hr with hr | rfl
      · exact .inl ⟨r, hr, h⟩
      · exact .inr h

/-! ### The fetch -/

/-- The fetched word as a number: the byte at PC holds the high half (20_memory.md R57). -/
theorem toNat_wordOfBytes (hi lo : Byte) : (wordOfBytes hi lo).toNat = hi.toNat * 256 + lo.toNat := by
  rw [wordOfBytes, BitVec.toNat_append, Nat.shiftLeft_eq, ← Nat.mul_comm (2 ^ 8),
    ← Nat.two_pow_add_eq_or_of_lt lo.isLt, Nat.mul_comm]

theorem wordOfBytes_high_low (w : Word) : wordOfBytes (wordHigh w) (wordLow w) = w := by
  apply BitVec.eq_of_toNat_eq
  rw [toNat_wordOfBytes]
  simp only [wordHigh, wordLow, BitVec.extractLsb'_toNat, Nat.shiftRight_eq_div_pow]
  have := w.isLt
  omega

/-- A word placed where the next `step` fetches is the word it fetches. -/
theorem fetchWord_pokeFetch (s : State) (w : Word) : fetchWord (pokeFetch s w) = w := by
  have hne : wrapAddr (s.pc.toNat + 1) ≠ wrapAddr s.pc.toNat := by
    simp only [wrapAddr]; omega
  have h0 : memRead (pokeFetch s w) s.pc.toNat = wordHigh w := by
    simp only [memRead, pokeFetch, Memory.read_poke, if_neg hne, if_true]
  have h1 : memRead (pokeFetch s w) (s.pc.toNat + 1) = wordLow w := by
    simp only [memRead, pokeFetch, Memory.read_poke, if_true]
  exact (congrArg₂ wordOfBytes h0 h1).trans (wordOfBytes_high_low w)

/-! ### The key wait -/

theorem pollKey_none (s : State) (h : s.kpend = none) : pollKey s = s := by
  simp [pollKey, h]

theorem pollKey_some (s : State) (k : KeyIdx) (h : s.kpend = some k) :
    pollKey s = ((s.setReg s.wreg (BitVec.ofNat 8 k.val)).advance).setRun .running none := by
  simp [pollKey, h]

/-! ### None of the loops reads ST (45_timer_keypad.md R152) -/

theorem storeRegs_setSt (s : State) (b : Byte) (k : Nat) : storeRegs (s.setSt b) k = storeRegs s k := by
  induction k with
  | zero => rfl
  | succ k ih => simp only [storeRegs, ih]; rfl

theorem loadRegs_setSt (s : State) (b : Byte) (k : Nat) : loadRegs (s.setSt b) k = loadRegs s k := by
  induction k with
  | zero => rfl
  | succ k ih => simp only [loadRegs, ih]; rfl

theorem blitSprite_setSt (s : State) (b : Byte) (vx vy k : Nat) :
    blitSprite (s.setSt b) vx vy k = blitSprite s vx vy k := by
  induction k with
  | zero => rfl
  | succ k ih => simp only [blitSprite, ih]; rfl

end Sys2Proof.Machine
end

