-- ==== Sys2Proof/Laws/PerInstr.lean ====
section
/-! SUPPORT. Per-instruction laws: the word of every instruction matches the instruction's row of the opcode map. -/

/-- The instruction's word matches its row, and its row stands in the opcode map (30_encoding.md R75, R76). -/
def Sys2Proof.Laws.EncodesInRow.Statement (i : Sys2Proof.Instr) : Prop :=
  i.opRow.admits (Sys2Proof.encode i) = true ∧ i.opRow ∈ Sys2Proof.opcodeRows

namespace Sys2Proof

open Sys2Proof.Laws.EncodesInRow

/-- A word that is the row's match under the row's mask, of a row in the map. -/
theorem encodesInRow_of (i : Instr) (r : OpRow) (hr : i.opRow = r) (hm : encode i &&& r.mask = r.matchBits)
    (hin : r ∈ opcodeRows) : Statement i := by
  subst hr
  exact ⟨beq_iff_eq.mpr hm, hin⟩

theorem Laws.EncodesInRow.cls : Statement .cls :=
  encodesInRow_of _ ⟨0x00E0, 0xFFFF⟩ rfl (by decide) (by decide)

theorem Laws.EncodesInRow.ret : Statement .ret :=
  encodesInRow_of _ ⟨0x00EE, 0xFFFF⟩ rfl (by decide) (by decide)

theorem Laws.EncodesInRow.jp (nnn : BitVec 12) : Statement (.jp nnn) :=
  encodesInRow_of _ ⟨0x1000, 0xF000⟩ rfl ((packNnn_and _ _).trans (by decide)) (by decide)

theorem Laws.EncodesInRow.call (nnn : BitVec 12) : Statement (.call nnn) :=
  encodesInRow_of _ ⟨0x2000, 0xF000⟩ rfl ((packNnn_and _ _).trans (by decide)) (by decide)

theorem Laws.EncodesInRow.seVxKk (x : RegIdx) (kk : Byte) : Statement (.seVxKk x kk) :=
  encodesInRow_of _ ⟨0x3000, 0xF000⟩ rfl ((packXkk_and _ _ _).trans (by decide)) (by decide)

theorem Laws.EncodesInRow.sneVxKk (x : RegIdx) (kk : Byte) : Statement (.sneVxKk x kk) :=
  encodesInRow_of _ ⟨0x4000, 0xF000⟩ rfl ((packXkk_and _ _ _).trans (by decide)) (by decide)

theorem Laws.EncodesInRow.seVxVy (x : RegIdx) (y : RegIdx) : Statement (.seVxVy x y) :=
  encodesInRow_of _ ⟨0x5000, 0xF00F⟩ rfl ((packXy_and _ _ _ _).trans (by decide)) (by decide)

theorem Laws.EncodesInRow.ldVxKk (x : RegIdx) (kk : Byte) : Statement (.ldVxKk x kk) :=
  encodesInRow_of _ ⟨0x6000, 0xF000⟩ rfl ((packXkk_and _ _ _).trans (by decide)) (by decide)

theorem Laws.EncodesInRow.addVxKk (x : RegIdx) (kk : Byte) : Statement (.addVxKk x kk) :=
  encodesInRow_of _ ⟨0x7000, 0xF000⟩ rfl ((packXkk_and _ _ _).trans (by decide)) (by decide)

theorem Laws.EncodesInRow.ldVxVy (x : RegIdx) (y : RegIdx) : Statement (.ldVxVy x y) :=
  encodesInRow_of _ ⟨0x8000, 0xF00F⟩ rfl ((packXy_and _ _ _ _).trans (by decide)) (by decide)

theorem Laws.EncodesInRow.orVxVy (x : RegIdx) (y : RegIdx) : Statement (.orVxVy x y) :=
  encodesInRow_of _ ⟨0x8001, 0xF00F⟩ rfl ((packXy_and _ _ _ _).trans (by decide)) (by decide)

theorem Laws.EncodesInRow.andVxVy (x : RegIdx) (y : RegIdx) : Statement (.andVxVy x y) :=
  encodesInRow_of _ ⟨0x8002, 0xF00F⟩ rfl ((packXy_and _ _ _ _).trans (by decide)) (by decide)

theorem Laws.EncodesInRow.xorVxVy (x : RegIdx) (y : RegIdx) : Statement (.xorVxVy x y) :=
  encodesInRow_of _ ⟨0x8003, 0xF00F⟩ rfl ((packXy_and _ _ _ _).trans (by decide)) (by decide)

theorem Laws.EncodesInRow.addVxVy (x : RegIdx) (y : RegIdx) : Statement (.addVxVy x y) :=
  encodesInRow_of _ ⟨0x8004, 0xF00F⟩ rfl ((packXy_and _ _ _ _).trans (by decide)) (by decide)

theorem Laws.EncodesInRow.subVxVy (x : RegIdx) (y : RegIdx) : Statement (.subVxVy x y) :=
  encodesInRow_of _ ⟨0x8005, 0xF00F⟩ rfl ((packXy_and _ _ _ _).trans (by decide)) (by decide)

theorem Laws.EncodesInRow.shrVxVy (x : RegIdx) (y : RegIdx) : Statement (.shrVxVy x y) :=
  encodesInRow_of _ ⟨0x8006, 0xF00F⟩ rfl ((packXy_and _ _ _ _).trans (by decide)) (by decide)

theorem Laws.EncodesInRow.subnVxVy (x : RegIdx) (y : RegIdx) : Statement (.subnVxVy x y) :=
  encodesInRow_of _ ⟨0x8007, 0xF00F⟩ rfl ((packXy_and _ _ _ _).trans (by decide)) (by decide)

theorem Laws.EncodesInRow.shlVxVy (x : RegIdx) (y : RegIdx) : Statement (.shlVxVy x y) :=
  encodesInRow_of _ ⟨0x800E, 0xF00F⟩ rfl ((packXy_and _ _ _ _).trans (by decide)) (by decide)

theorem Laws.EncodesInRow.sneVxVy (x : RegIdx) (y : RegIdx) : Statement (.sneVxVy x y) :=
  encodesInRow_of _ ⟨0x9000, 0xF00F⟩ rfl ((packXy_and _ _ _ _).trans (by decide)) (by decide)

theorem Laws.EncodesInRow.ldINnn (nnn : BitVec 12) : Statement (.ldINnn nnn) :=
  encodesInRow_of _ ⟨0xA000, 0xF000⟩ rfl ((packNnn_and _ _).trans (by decide)) (by decide)

theorem Laws.EncodesInRow.jpV0Nnn (nnn : BitVec 12) : Statement (.jpV0Nnn nnn) :=
  encodesInRow_of _ ⟨0xB000, 0xF000⟩ rfl ((packNnn_and _ _).trans (by decide)) (by decide)

theorem Laws.EncodesInRow.rndVxKk (x : RegIdx) (kk : Byte) : Statement (.rndVxKk x kk) :=
  encodesInRow_of _ ⟨0xC000, 0xF000⟩ rfl ((packXkk_and _ _ _).trans (by decide)) (by decide)

theorem Laws.EncodesInRow.drwVxVyN (x : RegIdx) (y : RegIdx) (n : BitVec 4) : Statement (.drwVxVyN x y n) :=
  encodesInRow_of _ ⟨0xD000, 0xF000⟩ rfl ((packXyn_and _ _ _ _).trans (by decide)) (by decide)

theorem Laws.EncodesInRow.skpVx (x : RegIdx) : Statement (.skpVx x) :=
  encodesInRow_of _ ⟨0xE09E, 0xF0FF⟩ rfl ((packXs_and _ _ _).trans (by decide)) (by decide)

theorem Laws.EncodesInRow.sknpVx (x : RegIdx) : Statement (.sknpVx x) :=
  encodesInRow_of _ ⟨0xE0A1, 0xF0FF⟩ rfl ((packXs_and _ _ _).trans (by decide)) (by decide)

theorem Laws.EncodesInRow.ldVxDt (x : RegIdx) : Statement (.ldVxDt x) :=
  encodesInRow_of _ ⟨0xF007, 0xF0FF⟩ rfl ((packXs_and _ _ _).trans (by decide)) (by decide)

theorem Laws.EncodesInRow.ldVxK (x : RegIdx) : Statement (.ldVxK x) :=
  encodesInRow_of _ ⟨0xF00A, 0xF0FF⟩ rfl ((packXs_and _ _ _).trans (by decide)) (by decide)

theorem Laws.EncodesInRow.ldDtVx (x : RegIdx) : Statement (.ldDtVx x) :=
  encodesInRow_of _ ⟨0xF015, 0xF0FF⟩ rfl ((packXs_and _ _ _).trans (by decide)) (by decide)

theorem Laws.EncodesInRow.ldStVx (x : RegIdx) : Statement (.ldStVx x) :=
  encodesInRow_of _ ⟨0xF018, 0xF0FF⟩ rfl ((packXs_and _ _ _).trans (by decide)) (by decide)

theorem Laws.EncodesInRow.addIVx (x : RegIdx) : Statement (.addIVx x) :=
  encodesInRow_of _ ⟨0xF01E, 0xF0FF⟩ rfl ((packXs_and _ _ _).trans (by decide)) (by decide)

theorem Laws.EncodesInRow.ldFVx (x : RegIdx) : Statement (.ldFVx x) :=
  encodesInRow_of _ ⟨0xF029, 0xF0FF⟩ rfl ((packXs_and _ _ _).trans (by decide)) (by decide)

theorem Laws.EncodesInRow.ldBVx (x : RegIdx) : Statement (.ldBVx x) :=
  encodesInRow_of _ ⟨0xF033, 0xF0FF⟩ rfl ((packXs_and _ _ _).trans (by decide)) (by decide)

theorem Laws.EncodesInRow.ldMiVx (x : RegIdx) : Statement (.ldMiVx x) :=
  encodesInRow_of _ ⟨0xF055, 0xF0FF⟩ rfl ((packXs_and _ _ _).trans (by decide)) (by decide)

theorem Laws.EncodesInRow.ldVxMi (x : RegIdx) : Statement (.ldVxMi x) :=
  encodesInRow_of _ ⟨0xF065, 0xF0FF⟩ rfl ((packXs_and _ _ _).trans (by decide)) (by decide)

end Sys2Proof
end

