-- ==== Sys2Proof/Laws/Step.lean ====
section
/-! SUPPORT. What one `step`, one CALL, one RET and one host operation can do, said once. -/

namespace Sys2Proof.Machine

/-- Everything that a `step` ending in a next state can have done (40_step_dispatch.md R91, R92). -/
theorem step_next_cases (s t : State) (h : step s = .next t) :
    (s.run = .awaitingKey ∧ t = pollKey s) ∨
      (s.run = .running ∧ ∃ i, decodeWord (fetchWord s) = .ok i ∧ exec i s = .next t) := by
  unfold step at h
  split at h
  · next hr => exact .inl ⟨hr, (Host.Outcome.next.inj h).symm⟩
  · next hr =>
    unfold stepRunning raise at h
    split at h
    · cases h
    · next i hi => exact .inr ⟨hr, i, hi, h⟩

/-- CALL with a free slot (41_flow_stack.md R101). -/
theorem execCall_free (nnn : BitVec 12) (s : State) (h : s.sp.val < 16) :
    execCall nnn s =
      .next ((s.setStack (s.stk.set s.sp.val s.pc h) ⟨s.sp.val + 1, by omega⟩).setPc (immAddr nnn)) := by
  simp only [execCall, State.push, dif_pos h]

/-- CALL with no free slot (41_flow_stack.md R101). -/
theorem execCall_full (nnn : BitVec 12) (s : State) (h : ¬ s.sp.val < 16) :
    execCall nnn s = .fault .stackOverflow := by
  simp only [execCall, State.push, dif_neg h, raise]

/-- RET with a live entry (41_flow_stack.md R102). -/
theorem execRet_live (s : State) (h : 0 < s.sp.val) :
    execRet s =
      .next ((s.setStack s.stk ⟨s.sp.val - 1, by have := s.sp.isLt; omega⟩).setPc
        (s.stk[s.sp.val - 1]'(by have := s.sp.isLt; omega) + 2)) := by
  simp only [execRet, State.pop, dif_pos h]

/-- RET with no live entry (41_flow_stack.md R102). -/
theorem execRet_empty (s : State) (h : ¬ 0 < s.sp.val) : execRet s = .fault .stackUnderflow := by
  simp only [execRet, State.pop, dif_neg h, raise]

/-- The host operations that cannot fail (60_exceptions.md R170). -/
@[simp] theorem perform_reset (s : State) : perform .reset s = (hostReset s, .ok) := rfl

@[simp] theorem perform_tick (s : State) : perform .tick s = (hostTick s, .ok) := rfl

@[simp] theorem perform_keyDown (k : KeyIdx) (s : State) : perform (.keyDown k) s = (hostKeyDown k s, .ok) := rfl

@[simp] theorem perform_keyUp (k : KeyIdx) (s : State) : perform (.keyUp k) s = (hostKeyUp k s, .ok) := rfl

/-- The state after `perform .step`: the next state, or the state as it was (40_step_dispatch.md R96). -/
theorem perform_step_state (s : State) :
    (∃ t, step s = .next t ∧ (perform .step s).1 = t) ∨ (perform .step s).1 = s := by
  rw [perform]
  cases h : step s with
  | next t => exact .inl ⟨t, rfl, rfl⟩
  | fault f => exact .inr rfl
  | refused r => exact .inr rfl

end Sys2Proof.Machine
end

