-- ==== Sys2Proof/Laws/Values.lean ====
section
/-! SUPPORT. The values of flags, immediates, digits and nibbles as numbers, and the host operations field by field. -/

namespace Sys2Proof.Machine

/-! ### Flags (10_state.md R24) -/

@[simp] theorem toNat_flagByte (b : Bool) : (flagByte b).toNat = if b = true then 1 else 0 := by cases b <;> rfl

theorem toNat_carryFlag (a b : Byte) : (carryFlag a b).toNat = if 255 < a.toNat + b.toNat then 1 else 0 := by
  simp [carryFlag]

theorem toNat_noBorrowFlag (a b : Byte) : (noBorrowFlag a b).toNat = if b.toNat ≤ a.toNat then 1 else 0 := by
  simp [noBorrowFlag]

theorem toNat_lowBitFlag (b : Byte) : (lowBitFlag b).toNat = b.toNat % 2 := by
  simp only [lowBitFlag, toNat_flagByte, BitVec.getLsbD, Nat.testBit, Nat.shiftRight_zero]
  simp; split <;> omega

theorem toNat_highBitFlag (b : Byte) : (highBitFlag b).toNat = b.toNat / 128 := by
  have := b.isLt
  simp only [highBitFlag, toNat_flagByte, BitVec.getLsbD, Nat.testBit, Nat.shiftRight_eq_div_pow]
  simp; split <;> omega

theorem toNat_indexOverflowFlag (i : Word) (b : Byte) :
    (indexOverflowFlag i b).toNat = if 0xFFF < i.toNat % 0x1000 + b.toNat then 1 else 0 := by
  simp [indexOverflowFlag]

/-! ### Operands -/

@[simp] theorem toNat_immAddr (nnn : BitVec 12) : (immAddr nnn).toNat = nnn.toNat := by
  simp [immAddr]; omega

@[simp] theorem toNat_regWord (b : Byte) : (regWord b).toNat = b.toNat := by
  simp [regWord]; omega

@[simp] theorem val_lowNibble (b : Byte) : (lowNibble b).val = b.toNat % 16 := by
  simp [lowNibble]

@[simp] theorem toNat_fontAddr (d : Fin 16) : (fontAddr d).toNat = 5 * d.val := by
  simp [fontAddr]; omega

@[simp] theorem toNat_hundreds (b : Byte) : (hundreds b).toNat = b.toNat / 100 := by
  have := b.isLt
  simp [hundreds]; omega

@[simp] theorem toNat_tens (b : Byte) : (tens b).toNat = b.toNat / 10 % 10 := by
  simp [tens]; omega

@[simp] theorem toNat_units (b : Byte) : (units b).toNat = b.toNat % 10 := by
  simp [units]; omega

/-! ### Host operations -/

@[simp] theorem toNat_tickDown (b : Byte) : (tickDown b).toNat = b.toNat - 1 := by
  unfold tickDown
  split
  · next h => simp [h]
  · next h =>
    have h0 : b.toNat ≠ 0 := fun e => h (BitVec.eq_of_toNat_eq e)
    have := b.isLt
    simp [BitVec.toNat_sub]; omega

/-- `load` of an image that fits (70_reset_and_hazards.md R193). -/
theorem hostLoad_fits (image : List Byte) (s : State) (h : image.length ≤ 0xE00) :
    hostLoad image s = .next ((hostReset s).setMem (Memory.pokeList s.config.font s.mem 0x200 image)) := by
  simp [hostLoad, imageFits, h]

/-- `load` of an image that does not fit (70_reset_and_hazards.md R193). -/
theorem hostLoad_tooLarge (image : List Byte) (s : State) (h : ¬ image.length ≤ 0xE00) :
    hostLoad image s = .fault .programTooLarge := by
  simp [hostLoad, imageFits, h, raise]

end Sys2Proof.Machine
end

