-- ==== Sys2Proof/Tests/Slice0.lean ====
section
/-! SUPPORT. The model's own tests: the well-formedness smoke, a word of every instruction, steps of the spec's vectors,
and a state that meets the hypotheses of every statement that has some. -/

namespace Sys2Proof.Tests

open Sys2Proof.Machine

/-! ### Well-formedness: one ill-formed term for each check (95_test_vectors.md 2.1, 2.8) -/

theorem test_class0_word_refused : legalWord 0x0123#16 = false ∧ decodeWord 0x0123#16 = .error .class0 := by decide
theorem test_class0_high_nibble_refused : legalWord 0x01E0#16 = false ∧ decodeWord 0x01E0#16 = .error .class0 := by decide
theorem test_class5_word_refused : legalWord 0x5001#16 = false ∧ decodeWord 0x5001#16 = .error .class5 := by decide
theorem test_class8_word_refused : legalWord 0x8128#16 = false ∧ decodeWord 0x812F#16 = .error .class8 := by decide
theorem test_class9_word_refused : legalWord 0x9121#16 = false ∧ decodeWord 0x9121#16 = .error .class9 := by decide
theorem test_classE_word_refused : legalWord 0xE19F#16 = false ∧ decodeWord 0xE0A2#16 = .error .classE := by decide
theorem test_classF_word_refused : legalWord 0xF075#16 = false ∧ decodeWord 0xF090#16 = .error .classF := by decide
theorem test_image_over_limit_refused : imageFits (List.replicate 0xE01 0#8) = false := by
  unfold imageFits; rw [List.length_replicate]; rfl
theorem test_legal_words_accepted : legalWord 0x00E0#16 = true ∧ legalWord 0x5120#16 = true ∧ legalWord 0xF01E#16 = true := by
  decide

/-! ### Decoding: a word of every instruction, written from 30_encoding.md R72 and R76 -/

theorem test_decode_cls : decodeWord 0b0000000011100000#16 = .ok (.cls) := rfl
theorem test_decode_ret : decodeWord 0b0000000011101110#16 = .ok (.ret) := rfl
theorem test_decode_jp : decodeWord 0b0001101010111100#16 = .ok (.jp 0xABC#12) := rfl
theorem test_decode_call : decodeWord 0b0010001000001010#16 = .ok (.call 0x20A#12) := rfl
theorem test_decode_seVxKk : decodeWord 0b0011001100101010#16 = .ok (.seVxKk 3 0x2A#8) := rfl
theorem test_decode_sneVxKk : decodeWord 0b0100001100101011#16 = .ok (.sneVxKk 3 0x2B#8) := rfl
theorem test_decode_seVxVy : decodeWord 0b0101000100100000#16 = .ok (.seVxVy 1 2) := rfl
theorem test_decode_ldVxKk : decodeWord 0b0110101001111111#16 = .ok (.ldVxKk 10 0x7F#8) := rfl
theorem test_decode_addVxKk : decodeWord 0b0111111100000001#16 = .ok (.addVxKk 15 0x01#8) := rfl
theorem test_decode_ldVxVy : decodeWord 0b1000000100100000#16 = .ok (.ldVxVy 1 2) := rfl
theorem test_decode_orVxVy : decodeWord 0b1000000100100001#16 = .ok (.orVxVy 1 2) := rfl
theorem test_decode_andVxVy : decodeWord 0b1000000100100010#16 = .ok (.andVxVy 1 2) := rfl
theorem test_decode_xorVxVy : decodeWord 0b1000000100100011#16 = .ok (.xorVxVy 1 2) := rfl
theorem test_decode_addVxVy : decodeWord 0b1000000111110100#16 = .ok (.addVxVy 1 15) := rfl
theorem test_decode_subVxVy : decodeWord 0b1000000100100101#16 = .ok (.subVxVy 1 2) := rfl
theorem test_decode_shrVxVy : decodeWord 0b1000111100100110#16 = .ok (.shrVxVy 15 2) := rfl
theorem test_decode_subnVxVy : decodeWord 0b1000000100100111#16 = .ok (.subnVxVy 1 2) := rfl
theorem test_decode_shlVxVy : decodeWord 0b1000000100101110#16 = .ok (.shlVxVy 1 2) := rfl
theorem test_decode_sneVxVy : decodeWord 0b1001000100100000#16 = .ok (.sneVxVy 1 2) := rfl
theorem test_decode_ldINnn : decodeWord 0b1010001011110000#16 = .ok (.ldINnn 0x2F0#12) := rfl
theorem test_decode_jpV0Nnn : decodeWord 0b1011001100000000#16 = .ok (.jpV0Nnn 0x300#12) := rfl
theorem test_decode_rndVxKk : decodeWord 0b1100001100001111#16 = .ok (.rndVxKk 3 0x0F#8) := rfl
theorem test_decode_drwVxVyN : decodeWord 0b1101000100100101#16 = .ok (.drwVxVyN 1 2 5#4) := rfl
theorem test_decode_skpVx : decodeWord 0b1110000110011110#16 = .ok (.skpVx 1) := rfl
theorem test_decode_sknpVx : decodeWord 0b1110000110100001#16 = .ok (.sknpVx 1) := rfl
theorem test_decode_ldVxDt : decodeWord 0b1111010100000111#16 = .ok (.ldVxDt 5) := rfl
theorem test_decode_ldVxK : decodeWord 0b1111000100001010#16 = .ok (.ldVxK 1) := rfl
theorem test_decode_ldDtVx : decodeWord 0b1111000000010101#16 = .ok (.ldDtVx 0) := rfl
theorem test_decode_ldStVx : decodeWord 0b1111000100011000#16 = .ok (.ldStVx 1) := rfl
theorem test_decode_addIVx : decodeWord 0b1111001000011110#16 = .ok (.addIVx 2) := rfl
theorem test_decode_ldFVx : decodeWord 0b1111010000101001#16 = .ok (.ldFVx 4) := rfl
theorem test_decode_ldBVx : decodeWord 0b1111001100110011#16 = .ok (.ldBVx 3) := rfl
theorem test_decode_ldMiVx : decodeWord 0b1111001101010101#16 = .ok (.ldMiVx 3) := rfl
theorem test_decode_ldVxMi : decodeWord 0b1111001001100101#16 = .ok (.ldVxMi 2) := rfl
theorem test_decode_bytes_high_first : decodeBytes 0x8E#8 0x15#8 = .ok (.subVxVy 14 1) := rfl
theorem test_decode_table_word : decodeTableWord 16 0xD015 = some (.drwVxVyN 0 1 5#4) := by decide
theorem test_decode_table_word_illegal : decodeTableWord 16 0x9121 = none := by decide

/-! ### Steps: the vectors of 95_test_vectors.md 2.2 to 2.8, the word at PC = 0x200 unless said -/

/-- The state after `reset` with a word placed at PC. -/
def at200 (w : Nat) : State := State.reset.withFetchWord 16 w

/-- The same with both quirks on. -/
def quirky (w : Nat) : State :=
  { at200 w with config := { Config.default with quirkShiftVy := true, quirkFx1eVf := true } }

/-- Bytes placed in memory. -/
def withBytes (s : State) (a : Nat) (bs : List Byte) : State := s.setMem (Memory.pokeList s.config.font s.mem a bs)

/-- What `f` reads after one step. -/
def after {α : Type} (s : State) (f : State → α) : Option α := (nextState (step s)).map f

theorem test_jp : after (at200 0x1ABC) (·.pc) = some 0x0ABC := by decide
theorem test_call : after ((at200 0x220A).setReg 0 0) (fun t => (t.pc, t.sp, t.stk[0])) = some (0x20A, 1, 0x200) := by decide
theorem test_call_full : faultOf (step ((at200 0x2300).setStack (Vector.replicate 16 0) 16)) = some .stackOverflow := by decide
theorem test_ret : after ((at200 0x00EE).setStack (Vector.replicate 16 0xFFFE) 1) (fun t => (t.pc, t.sp, t.stk[0])) = some (0, 0, 0xFFFE) := by
  decide
theorem test_ret_empty : faultOf (step (at200 0x00EE)) = some .stackUnderflow := by decide
theorem test_se_byte : after ((at200 0x332A).setReg 3 0x2A) (·.pc) = some 0x204 := by decide
theorem test_sne_byte : after ((at200 0x432A).setReg 3 0x2A) (·.pc) = some 0x202 := by decide
theorem test_se_regs : after (((at200 0x5120).setReg 1 7).setReg 2 8) (·.pc) = some 0x202 := by decide
theorem test_sne_regs : after (((at200 0x9120).setReg 1 7).setReg 2 8) (·.pc) = some 0x204 := by decide
theorem test_jp_v0 : after ((at200 0xBFFF).setReg 0 0xFF) (·.pc) = some 0x10FE := by decide
theorem test_fetch_wraps : after ((State.reset.setPc 0xFFF).withFetchWord 16 0x6AF0) (fun t => (t.reg 10, t.pc)) = some (0xF0, 0x1001) := by
  decide
theorem test_pc_wraps : after (((State.reset.setPc 0xFFFE)).withFetchWord 16 0x3000) (·.pc) = some 2 := by decide

theorem test_ld_byte : after (at200 0x6A7F) (·.reg 10) = some 0x7F := by decide
theorem test_add_byte_no_flag : after (((at200 0x7002).setReg 0 0xFF).setReg 15 7) (fun t => (t.reg 0, t.reg 15)) = some (1, 7) := by decide
theorem test_ld_reg : after ((at200 0x8120).setReg 2 0x33) (·.reg 1) = some 0x33 := by decide
theorem test_or : after (((at200 0x8121).setReg 1 0xF0).setReg 2 0x0F) (·.reg 1) = some 0xFF := by decide
theorem test_and : after (((at200 0x8122).setReg 1 0xF0).setReg 2 0x3C) (·.reg 1) = some 0x30 := by decide
theorem test_xor : after (((at200 0x8123).setReg 1 0xF0).setReg 2 0x3C) (·.reg 1) = some 0xCC := by decide
theorem test_add_carry : after (((at200 0x8124).setReg 1 250).setReg 2 10) (fun t => (t.reg 1, t.reg 15)) = some (4, 1) := by decide
theorem test_add_flag_wins : after (((at200 0x8F14).setReg 15 0xF0).setReg 1 0x20) (·.reg 15) = some 1 := by decide
theorem test_sub_borrow : after (((at200 0x8125).setReg 1 5).setReg 2 7) (fun t => (t.reg 1, t.reg 15)) = some (0xFE, 0) := by decide
theorem test_sub_old_flag_operand : after (((at200 0x81F5).setReg 1 5).setReg 15 1) (fun t => (t.reg 1, t.reg 15)) = some (4, 1) := by decide
theorem test_shr : after (((at200 0x8126).setReg 1 5).setReg 2 8) (fun t => (t.reg 1, t.reg 15)) = some (2, 1) := by decide
theorem test_shr_quirk : after (((quirky 0x8126).setReg 1 5).setReg 2 8) (fun t => (t.reg 1, t.reg 2, t.reg 15)) = some (4, 8, 0) := by decide
theorem test_subn : after (((at200 0x8127).setReg 1 7).setReg 2 7) (fun t => (t.reg 1, t.reg 15)) = some (0, 1) := by decide
theorem test_shl : after ((at200 0x812E).setReg 1 0x81) (fun t => (t.reg 1, t.reg 15)) = some (2, 1) := by decide
theorem test_shl_quirk : after (((quirky 0x812E).setReg 1 0x81).setReg 2 0x40) (fun t => (t.reg 1, t.reg 15)) = some (0x80, 0) := by decide
theorem test_rnd_zero_mask : after ((at200 0xC300).setReg 3 0x55) (fun t => (t.reg 3, t.draws)) = some (0, 1) := by
  have h : step ((at200 0xC300).setReg 3 0x55) = exec (.rndVxKk 3 0) ((at200 0xC300).setReg 3 0x55) := rfl
  have z : ∀ b : Byte, b &&& 0#8 = 0#8 := fun _ => BitVec.and_zero
  unfold after; rw [h]; simp only [exec, execRndVxKk, nextState, Option.map_some]
  erw [z]; rfl

theorem test_ld_i : after (at200 0xA2F0) (·.i) = some 0x2F0 := by decide
theorem test_add_i : after ((((at200 0xF21E).setIndex 0xFFF).setReg 2 1).setReg 15 0x77) (fun t => (t.i, t.reg 15)) = some (0x1000, 0x77) := by
  decide
theorem test_add_i_quirk : after (((quirky 0xFF1E).setIndex 0xFFF).setReg 15 0xFF) (fun t => (t.i, t.reg 15)) = some (0x10FE, 1) := by decide
theorem test_ld_f : after ((at200 0xF429).setReg 4 0x1A) (·.i) = some 0x32 := by decide
theorem test_ld_b : after (((at200 0xF333).setIndex 0x300).setReg 3 0xEA) (fun t => (memRead t 0x300, memRead t 0x301, memRead t 0x302)) = some (2, 3, 4) := by
  decide
theorem test_ld_b_font : after (((at200 0xF333).setIndex 0x4E).setReg 3 7) (fun t => (memRead t 0x4E, memRead t 0x4F, memRead t 0x50)) = some (0x80, 0x80, 7) := by
  decide
theorem test_ld_mi : after ((((at200 0xF155).setIndex 0x1400).setReg 0 0xB0).setReg 1 0xB1) (fun t => (memRead t 0x400, memRead t 0x401, memRead t 0x402, t.i)) = some (0xB0, 0xB1, 0, 0x1400) := by
  decide
theorem test_ld_mi_font : after ((((at200 0xF155).setIndex 0x4F).setReg 0 0xA0).setReg 1 0xA1) (fun t => (memRead t 0x4F, memRead t 0x50)) = some (0x80, 0xA1) := by
  decide
theorem test_ld_vx_mi_font : after (at200 0xF465) (fun t => (t.reg 0, t.reg 1, t.reg 4, t.reg 5)) = some (0xF0, 0x90, 0xF0, 0) := by decide
theorem test_ld_vx_mi_wraps : after (withBytes ((at200 0xF165).setIndex 0xFFF) 0xFFF [0xEE]) (fun t => (t.reg 0, t.reg 1)) = some (0xEE, 0xF0) := by
  decide

theorem test_cls : after (((at200 0x00E0).setFb (Display.clear.flip 1 1)).setReg 15 1) (fun t => (t.fb.pixel 1 1, t.reg 15)) = some (false, 1) := by
  decide
/-- The state of the vector D012 with I = 0x20C, bytes C0 81, V0 = 62, V1 = 31. -/
def drawState : State := withBytes ((((at200 0xD012).setIndex 0x20C).setReg 0 62).setReg 1 31) 0x20C [0xC0, 0x81]
theorem test_drw_wraps : after drawState (fun t => (t.fb.pixel 62 31, t.fb.pixel 63 31, t.fb.pixel 62 0, t.fb.pixel 5 0, t.fb.pixel 0 31, t.reg 15)) =
    some (true, true, true, true, false, 0) := by decide
theorem test_drw_collides : after ((((at200 0xD011).setIndex 0).setFb ((Display.clear.flip 0 0).flip 5 0))) (fun t => (t.fb.pixel 0 0, t.fb.pixel 1 0, t.fb.pixel 5 0, t.reg 15)) =
    some (false, true, true, 1) := by decide

theorem test_ld_vx_dt : after ((at200 0xF507).setDt 0x2D) (fun t => (t.reg 5, t.dt)) = some (0x2D, 0x2D) := by decide
theorem test_ld_dt : after ((at200 0xF015).setReg 0 0x3C) (·.dt) = some 0x3C := by decide
theorem test_ld_st : after ((at200 0xF118).setReg 1 5) (fun t => (t.st, soundOut t)) = some (5, true) := by decide
theorem test_skp : after (((at200 0xE19E).setReg 1 0x17).setKey 7 true) (·.pc) = some 0x204 := by decide
theorem test_sknp : after (((at200 0xE1A1).setReg 1 0xF7).setKey 7 true) (·.pc) = some 0x202 := by decide
theorem test_ld_k : after (at200 0xF10A) (fun t => (t.pc, t.run, t.wreg, t.kpend)) = some (0x200, .awaitingKey, 1, none) := by decide
theorem test_key_wait_resolves : after (hostKeyDown 7 ((at200 0xF10A).enterWait 1)) (fun t => (t.pc, t.reg 1, t.run, t.kpend)) = some (0x202, 7, .running, none) := by
  decide
theorem test_first_edge_wins : (hostKeyUp 5 (hostKeyDown 9 (hostKeyDown 5 (State.reset.enterWait 1)))).kpend = some 5 := by decide
theorem test_held_key_is_no_edge : (hostKeyDown 3 ((State.reset.setKey 3 true).enterWait 1)).kpend = none := by decide

theorem test_illegal_word : faultOf (step (at200 0x5001)) = some .decodeError := by decide
theorem test_step_after_reset : faultOf (step State.reset) = some .decodeError := by decide
theorem test_tick : (hostTick ((State.reset.setDt 2).setSt 0)).dt = 1 ∧ (hostTick ((State.reset.setDt 2).setSt 0)).st = 0 := by decide
theorem test_load_keeps_the_tail : (nextState (hostLoad [0x12, 0x00] ((withBytes State.reset 0x202 [0xAB]).setReg 3 0x55))).map
    (fun t => (memRead t 0x200, memRead t 0x202, t.reg 3)) = some (0x12, 0xAB, 0) := by decide
/-- 95_test_vectors.md P5: the stored word is fetched by a later step. -/
theorem test_store_is_fetched : after ((((((at200 0xF155).setReg 0 0x62).setReg 1 0x2A).setIndex 0x202))) (fun t => decodeWord (fetchWord t)) =
    some (.ok (.ldVxKk 2 0x2A#8)) := rfl
theorem test_reset_memory_wf : Memory.wf State.reset.config.font State.reset.mem := by decide

/-! ### Witnesses: concrete states and operands that meet the hypotheses of the statements -/

/-- A running state whose fetched word is CALL 0x300, with a full stack. -/
def fullStack : State := (at200 0x2300).setStack (Vector.replicate 16 0x200) 16

theorem witness_DecodedInstructionDeterminesWord : decodeWord 0x1ABC#16 = .ok (.jp 0xABC#12) := rfl
theorem witness_DecodingFollowsOpcodeMap_row : (⟨0xF0A0#16 &&& 0xF000#16, 0xF000⟩ : OpRow).admits 0xF0A0#16 = true ∧
    (⟨0x5000, 0xF00F⟩ : OpRow) ∈ opcodeRows ∧ (⟨0x5000, 0xF00F⟩ : OpRow).admits 0x5FF0#16 = true := by decide
theorem witness_DecodingFollowsOpcodeMap_illegal : (∀ r ∈ opcodeRows, r.admits 0x5001#16 = false) ∧
    (at200 0x5001).run = .running ∧ fetchWord (at200 0x5001) = 0x5001#16 := by decide
theorem witness_OpcodeRowsNeverOverlap : (⟨0x00E0, 0xFFFF⟩ : OpRow) ∈ opcodeRows ∧ (⟨0x00E0, 0xFFFF⟩ : OpRow).admits 0x00E0#16 = true := by
  decide
theorem witness_StepRunsTheDecodedInstruction : (at200 0x6A7F).run = .running ∧
    decodeWord (fetchWord (at200 0x6A7F)) = .ok (.ldVxKk 10 0x7F#8) := ⟨rfl, rfl⟩
theorem witness_StepRunsTheDecodedInstruction_illegal : (at200 0x9121).run = .running ∧
    decodeWord (fetchWord (at200 0x9121)) = .error .class9 ∧ faultOf (step (at200 0x9121)) = some .decodeError := ⟨rfl, rfl, rfl⟩
theorem witness_AwaitingStepPollsForTheKey_none : (State.reset.enterWait 15).run = .awaitingKey ∧ (State.reset.enterWait 15).kpend = none := by
  decide
theorem witness_AwaitingStepPollsForTheKey_some : (hostKeyDown 15 (State.reset.enterWait 15)).run = .awaitingKey ∧
    (hostKeyDown 15 (State.reset.enterWait 15)).kpend = some 15 := by decide
theorem witness_StepFailsInExactlyThreeCases : faultOf (step fullStack) = some .stackOverflow ∧
    faultOf (step (at200 0x00EE)) = some .stackUnderflow ∧ faultOf (step (at200 0)) = some .decodeError := by decide
theorem witness_EveryInstructionCompletesButForTheStack : ¬ ((∃ nnn, Instr.ret = .call nnn) ∧ fullStack.sp.val = 16) ∧
    ¬ (Instr.ret = .ret ∧ fullStack.sp.val = 0) := by
  constructor
  · rintro ⟨⟨_, h⟩, _⟩; cases h
  · decide
theorem witness_CallPushesItsOwnAddress_last_slot : (State.reset.setStack (Vector.replicate 16 0) 15).sp.val < 16 := by decide
theorem witness_CallOnFullStackOverflows : fullStack.sp.val = 16 ∧ fullStack.run = .running ∧
    decodeWord (fetchWord fullStack) = .ok (.call 0x300#12) := ⟨rfl, rfl, rfl⟩
theorem witness_ReturnPopsAndAddsTwo_live : 0 < fullStack.sp.val ∧ (15 : Fin 16).val + 1 = fullStack.sp.val := by decide
theorem witness_ReturnPopsAndAddsTwo_empty : State.reset.sp.val = 0 := rfl
theorem witness_ReturnOnEmptyStackUnderflows : (at200 0x00EE).sp.val = 0 ∧ (at200 0x00EE).run = .running ∧
    (fetchWord (at200 0x00EE)).toNat = 0x00EE := by decide
theorem witness_CallThenReturnComesBack : ∃ t u, exec (.call 0x300#12) State.reset = .next t ∧ u = t.setReg 0 1 ∧ u.sp = t.sp ∧
    ∀ j : Fin 16, j.val = State.reset.sp.val → u.stk[j.val] = t.stk[j.val] := ⟨_, _, rfl, rfl, rfl, fun _ _ => rfl⟩
theorem witness_ByteSkipsCompareWithImmediate : State.reset.reg 3 = 0 ∧ State.reset.reg 3 ≠ 1 ∧ State.reset.pc.toNat + 4 < 0x10000 := by decide
theorem witness_RegisterSkipsCompareRegisters : (State.reset.setReg 1 7).reg 1 ≠ (State.reset.setReg 1 7).reg 2 ∧
    (State.reset.setReg 1 7).reg 2 = (State.reset.setReg 1 7).reg 3 := by decide
theorem witness_ProgramCounterWrapsAtSixteenBits : (nextState (exec (.ldVxKk 0 1#8) (State.reset.setPc 0xFFFE))).map (·.pc) = some 0 ∧
    Instr.sequential (.ldVxKk 0 1#8) = true := by decide
/-- 95_test_vectors.md 2.2: at PC = 0xFFFE a skip that is taken ends at 0x0002, one that is not at 0x0000. -/
theorem witness_ProgramCounterWrapsAtSixteenBits_skips :
    (nextState (exec (.seVxKk 0 0#8) (State.reset.setPc 0xFFFE))).map (·.pc) = some 2 ∧
    (nextState (exec (.sneVxKk 0 0#8) (State.reset.setPc 0xFFFE))).map (·.pc) = some 0 ∧
    (nextState (exec (.seVxVy 0 1) (State.reset.setPc 0xFFFE))).map (·.pc) = some 2 ∧
    (nextState (exec (.sneVxVy 0 1) (State.reset.setPc 0xFFFE))).map (·.pc) = some 0 ∧
    (0 : KeyIdx).val = (State.reset.reg 0).toNat % 16 ∧
    (nextState (exec (.skpVx 0) (State.reset.setPc 0xFFFE))).map (·.pc) = some 0 ∧
    (nextState (exec (.sknpVx 0) (State.reset.setPc 0xFFFE))).map (·.pc) = some 2 := by decide
theorem witness_ShiftsFollowTheQuirk : (0x40#8) = (if ((quirky 0).setReg 2 0x40).config.quirkShiftVy = true then ((quirky 0).setReg 2 0x40).reg 2
    else ((quirky 0).setReg 2 0x40).reg 1) ∧ (at200 0).config.quirkShiftVy = false := by decide
theorem witness_RandomDrawsOneByteUnderMask : (∃ t, exec .cls State.reset = .next t) ∧ ∀ x kk, Instr.cls ≠ .rndVxKk x kk :=
  ⟨⟨_, rfl⟩, fun _ _ h => by cases h⟩
theorem witness_OnlyDestinationsAndFlagChange : (∃ t, exec (.addVxVy 1 2) State.reset = .next t) ∧
    (3 : RegIdx) ∉ Instr.destinations (.addVxVy 1 2) ∧ Instr.writesFlag State.reset.config (.addVxVy 1 2) = true :=
  ⟨⟨_, rfl⟩, by decide, rfl⟩
theorem witness_LoadThenAddGivesTheSum : ∃ t, exec (.ldVxKk 15 0xFF#8) State.reset = .next t := ⟨_, rfl⟩
theorem witness_IndexAddFollowsTheQuirk : (at200 0).config.quirkFx1eVf = false ∧ (quirky 0).config.quirkFx1eVf = true := ⟨rfl, rfl⟩
theorem witness_DecimalStoreWritesThreeDigits : inFontRegion (indexAddr (State.reset.setIndex 0x4E) 2) = false ∧
    inFontRegion (indexAddr (State.reset.setIndex 0x4E) 1) = true ∧
    (∀ k < 3, wrapAddr 0x51 ≠ wrapAddr (indexAddr (State.reset.setIndex 0x4E) k)) := by decide
theorem witness_RegisterStoreWritesTheRange : inFontRegion (indexAddr (State.reset.setIndex 0xFFF) 0) = false ∧
    inFontRegion (indexAddr (State.reset.setIndex 0xFFF) 1) = true ∧
    (∀ r : RegIdx, r ≤ 1 → wrapAddr 1 ≠ wrapAddr (indexAddr (State.reset.setIndex 0xFFF) r.val)) := by decide
theorem witness_RegisterLoadReadsTheRange : (15 : RegIdx) ≤ 15 ∧ (1 : RegIdx) ∉ regsUpTo 0 := by decide
theorem witness_FontRegionIsNeverOverwritten : (∃ t, exec (.ldMiVx 3) State.reset = .next t) ∧ 0x04F % 0x1000 ≤ 0x04F := ⟨⟨_, rfl⟩, by decide⟩
theorem witness_DrawingTwiceRestoresTheDisplay : (0 : RegIdx) ≠ 15 ∧ (1 : RegIdx) ≠ 15 ∧
    ∃ t, exec (.drwVxVyN 0 1 2#4) drawState = .next t := ⟨by decide, by decide, _, rfl⟩
theorem witness_KeySkipsReadTheLatch : (7 : KeyIdx).val = ((State.reset.setReg 1 0x17).reg 1).toNat % 16 := by decide
theorem witness_KeyWaitEndsAtTheFirstPressEdge : (∃ t, exec (.ldVxK 1) State.reset = .next t ∧ (performAll [.step, .tick, .keyUp 3] t).pressed 7 = false) ∧
    ∀ op ∈ [HostOp.step, .tick, .keyUp 3], op = .step ∨ op = .tick ∨ ∃ q, op = .keyUp q :=
  ⟨⟨_, rfl, by decide⟩, by simp⟩
theorem witness_KeyEventsUpdateTheLatch : (∃ t, perform (.keyDown 5) (State.reset.enterWait 1) = (t, .ok)) ∧
    (∃ u, perform (.keyUp 5) (State.reset.enterWait 1) = (u, .ok)) ∧
    (State.reset.enterWait 1).pressed 5 = false ∧ (State.reset.enterWait 1).run = .awaitingKey ∧ (State.reset.enterWait 1).kpend = none :=
  ⟨⟨_, rfl⟩, ⟨_, rfl⟩, by decide, rfl, rfl⟩
theorem witness_KeyEventsUpdateTheLatch_second_edge : ¬ ((hostKeyDown 5 (State.reset.enterWait 1)).pressed 9 = false ∧
    (hostKeyDown 5 (State.reset.enterWait 1)).run = .awaitingKey ∧ (hostKeyDown 5 (State.reset.enterWait 1)).kpend = none) := by decide
theorem witness_ResetGivesEveryResetValue : (∃ t, perform .reset drawState = (t, .ok)) ∧ drawState.config = Config.default ∧ drawState.draws = 0 :=
  ⟨⟨_, rfl⟩, rfl, rfl⟩
theorem witness_LoadPlacesTheImage_too_large : 0xE00 < (List.replicate 0xE01 0#8).length := by
  rw [List.length_replicate]; decide
theorem witness_LoadPlacesTheImage_largest : (List.replicate 0xE00 0#8).length ≤ 0xE00 ∧ 0xDFF < (List.replicate 0xE00 0#8).length := by
  rw [List.length_replicate]; decide
theorem witness_LargestImageFillsMemory : (List.replicate 0xE00 0#8).length = 0xE00 ∧ (List.replicate 0xE01 0#8).length = 0xE01 :=
  ⟨List.length_replicate, List.length_replicate⟩
theorem inv_reset : Inv State.reset := ⟨by decide, by unfold FontIntact; decide, fun _ => rfl⟩
theorem witness_StepKeepsTheMachineWellFormed : Inv (State.reset.enterWait 1) ∧ ∃ t, step (State.reset.enterWait 1) = .next t :=
  ⟨⟨by decide, by unfold FontIntact; decide, fun _ => rfl⟩, _, rfl⟩
theorem witness_EveryReachableStateIsWellFormed : Reachable (perform (.load [0x60, 0x01]) (State.resetWith Config.default 0)).1 :=
  .after _ _ (.start _ _)
theorem witness_OnlyNamedInstructionsTouchEachPart : (∃ t, exec (.ldVxDt 3) State.reset = .next t) ∧ ∀ x, Instr.ldVxDt 3 ≠ .ldDtVx x :=
  ⟨⟨_, rfl⟩, fun _ h => by cases h⟩
theorem witness_NoInstructionReadsTheSoundTimer : (∃ t, exec (.ldVxDt 3) State.reset = .next t) ∧ (∀ x, Instr.ldVxDt 3 ≠ .ldStVx x) ∧
    exec .ret State.reset = .fault .stackUnderflow := ⟨⟨_, rfl⟩, fun _ h => (by cases h), rfl⟩
theorem witness_RunStateChanges_entry : (at200 0xF10A).run = .running ∧ (perform .step (at200 0xF10A)).1.run = .awaitingKey := ⟨rfl, rfl⟩
theorem witness_RunStateChanges_exit : (hostKeyDown 7 (State.reset.enterWait 1)).run = .awaitingKey ∧
    (perform .step (hostKeyDown 7 (State.reset.enterWait 1))).1.run = .running := by decide
theorem witness_FinishedRunNeverChanges : Finished (at200 0x1200) := ⟨rfl, 0x200#12, rfl, rfl⟩

end Sys2Proof.Tests
end

section
/-! Decoding follows the opcode map (30_encoding.md R75). The rows are grouped by format; a row of each format matches
the words with the fields it fixes, and the decoder branches on those same fields. The converse goes through the word
of the decoded instruction. -/

namespace Sys2Proof

/-! ### The rows of the map by format (30_encoding.md R72, R76) -/

/-- A row that fixes the whole word. -/
def fullRow (m : Word) : OpRow := ⟨m, 0xFFFF#16⟩

/-- A row that fixes the class only (formats NNN, XKK and XYN). -/
def classRow (c : BitVec 4) : OpRow := ⟨packNnn c 0, 0xF000#16⟩

/-- A row that fixes the class and the low nibble (format XY). -/
def xyRow (c n : BitVec 4) : OpRow := ⟨packXyn c 0 0 n, 0xF00F#16⟩

/-- A row that fixes the class and the low byte (format XS). -/
def xsRow (c : BitVec 4) (kk : Byte) : OpRow := ⟨packXkk c 0 kk, 0xF0FF#16⟩

/-- The two words with a row of their own. -/
def fullWords : List Word := [0x00E0#16, 0x00EE#16]

/-- The classes that select a row by themselves. -/
def wholeClasses : List (BitVec 4) := [0x1#4, 0x2#4, 0x3#4, 0x4#4, 0x6#4, 0x7#4, 0xA#4, 0xB#4, 0xC#4, 0xD#4]

/-- Class and low nibble of the rows of format XY. -/
def xySelectors : List (BitVec 4 × BitVec 4) :=
  [(0x5#4, 0x0#4), (0x8#4, 0x0#4), (0x8#4, 0x1#4), (0x8#4, 0x2#4), (0x8#4, 0x3#4), (0x8#4, 0x4#4), (0x8#4, 0x5#4),
   (0x8#4, 0x6#4), (0x8#4, 0x7#4), (0x8#4, 0xE#4), (0x9#4, 0x0#4)]

/-- Class and low byte of the rows of format XS. -/
def xsSelectors : List (BitVec 4 × Byte) :=
  [(0xE#4, 0x9E#8), (0xE#4, 0xA1#8), (0xF#4, 0x07#8), (0xF#4, 0x0A#8), (0xF#4, 0x15#8), (0xF#4, 0x18#8),
   (0xF#4, 0x1E#8), (0xF#4, 0x29#8), (0xF#4, 0x33#8), (0xF#4, 0x55#8), (0xF#4, 0x65#8)]

/-- Every row of the map is of one of the four formats. -/
theorem opcodeRows_subset_formats :
    opcodeRows ⊆ fullWords.map fullRow ++ wholeClasses.map classRow ++
      xySelectors.map (fun p => xyRow p.1 p.2) ++ xsSelectors.map (fun p => xsRow p.1 p.2) := by
  decide

theorem OpRow.admits_iff (m k w : Word) : (⟨m, k⟩ : OpRow).admits w = true ↔ w &&& k = m := beq_iff_eq

theorem fullRow_admits_iff (m w : Word) : (fullRow m).admits w = true ↔ w = m := by
  rw [fullRow, OpRow.admits_iff, show w &&& 0xFFFF#16 = w from BitVec.and_allOnes]

theorem classRow_admits_iff (c : BitVec 4) (w : Word) : (classRow c).admits w = true ↔ fieldClass w = c := by
  have hand : w &&& 0xF000#16 = packNnn (fieldClass w) 0 := by
    rw [← packNnn_and _ (fieldNnn w), packNnn_fields]
  rw [classRow, OpRow.admits_iff, hand]
  exact ⟨fun h => by simpa using congrArg fieldClass h, fun h => by rw [h]⟩

theorem xyRow_admits_iff (c n : BitVec 4) (w : Word) :
    (xyRow c n).admits w = true ↔ fieldClass w = c ∧ fieldN w = n := by
  have hand : w &&& 0xF00F#16 = packXyn (fieldClass w) 0 0 (fieldN w) := by
    rw [← packXy_and _ (fieldX w) (fieldY w), packXyn_fields]
  rw [xyRow, OpRow.admits_iff, hand]
  exact ⟨fun h => ⟨by simpa using congrArg fieldClass h, by simpa using congrArg fieldN h⟩,
    fun ⟨hc, hn⟩ => by rw [hc, hn]⟩

theorem xsRow_admits_iff (c : BitVec 4) (kk : Byte) (w : Word) :
    (xsRow c kk).admits w = true ↔ fieldClass w = c ∧ fieldKk w = kk := by
  have hand : w &&& 0xF0FF#16 = packXkk (fieldClass w) 0 (fieldKk w) := by
    rw [← packXs_and _ (fieldX w), packXkk_fields]
  rw [xsRow, OpRow.admits_iff, hand]
  exact ⟨fun h => ⟨by simpa using congrArg fieldClass h, by simpa using congrArg fieldKk h⟩,
    fun ⟨hc, hk⟩ => by rw [hc, hk]⟩

/-! ### What the decoder answers on a word of a row -/

theorem decodeWord_of_classE {w : Word} (h : fieldClass w = 0xE#4) : decodeWord w = decodeClassE w := by
  rw [decodeWord, h]; rfl

theorem decodeWord_of_classF {w : Word} (h : fieldClass w = 0xF#4) : decodeWord w = decodeClassF w := by
  rw [decodeWord, h]; rfl

/-- The decoder answers an instruction of the row. -/
def DecodesTo (w : Word) (r : OpRow) : Prop := ∃ i, decodeWord w = .ok i ∧ i.opRow = r

theorem decodesTo_fullRow {w : Word} (hw : w ∈ fullWords) : DecodesTo w (fullRow w) := by
  fin_cases hw
  · exact ⟨.cls, rfl, rfl⟩
  · exact ⟨.ret, rfl, rfl⟩

theorem decodesTo_classRow {w : Word} {c : BitVec 4} (hc : c ∈ wholeClasses) (h : fieldClass w = c) :
    DecodesTo w (classRow c) := by
  fin_cases hc <;> simp only [DecodesTo, decodeWord, h, Except.ok.injEq, exists_eq_left'] <;> rfl

theorem decodesTo_xyRow {w : Word} {p : BitVec 4 × BitVec 4} (hp : p ∈ xySelectors) (hc : fieldClass w = p.1)
    (hn : fieldN w = p.2) : DecodesTo w (xyRow p.1 p.2) := by
  fin_cases hp <;>
    simp only [DecodesTo, decodeWord, decodeClass8, hc, hn, if_true, Except.ok.injEq, exists_eq_left'] <;> rfl

theorem decodesTo_xsRow {w : Word} {p : BitVec 4 × Byte} (hp : p ∈ xsSelectors) (hc : fieldClass w = p.1)
    (hk : fieldKk w = p.2) : DecodesTo w (xsRow p.1 p.2) := by
  fin_cases hp <;>
    simp only [DecodesTo, decodeWord_of_classE, decodeWord_of_classF, decodeClassE, decodeClassF, hc, hk,
      Except.ok.injEq, exists_eq_left'] <;> rfl

/-- A word that a row of the map matches decodes to an instruction of that row (30_encoding.md R75). -/
theorem decodesTo_of_admits {w : Word} {r : OpRow} (hr : r ∈ opcodeRows) (h : r.admits w = true) :
    DecodesTo w r := by
  have hformat := opcodeRows_subset_formats hr
  simp only [List.mem_append, List.mem_map, or_assoc] at hformat
  obtain ⟨m, hm, rfl⟩ | ⟨c, hc, rfl⟩ | ⟨p, hp, rfl⟩ | ⟨p, hp, rfl⟩ := hformat
  · obtain rfl := (fullRow_admits_iff m w).mp h
    exact decodesTo_fullRow hm
  · exact decodesTo_classRow hc ((classRow_admits_iff c w).mp h)
  · obtain ⟨hclass, hn⟩ := (xyRow_admits_iff p.1 p.2 w).mp h
    exact decodesTo_xyRow hp hclass hn
  · obtain ⟨hclass, hk⟩ := (xsRow_admits_iff p.1 p.2 w).mp h
    exact decodesTo_xsRow hp hclass hk

/-! ### The word of a decoded instruction -/

theorem packNnn_of_class {w : Word} {c : BitVec 4} (hc : fieldClass w = c) : packNnn c (fieldNnn w) = w :=
  hc ▸ packNnn_fields w

theorem packXkk_of_class {w : Word} {c : BitVec 4} (hc : fieldClass w = c) :
    packXkk c (fieldX w) (fieldKk w) = w :=
  hc ▸ packXkk_fields w

theorem packXkk_of_class_kk {w : Word} {c : BitVec 4} {kk : Byte} (hc : fieldClass w = c) (hk : fieldKk w = kk) :
    packXkk c (fieldX w) kk = w :=
  hk ▸ packXkk_of_class hc

theorem packXyn_of_class {w : Word} {c : BitVec 4} (hc : fieldClass w = c) :
    packXyn c (fieldX w) (fieldY w) (fieldN w) = w :=
  hc ▸ packXyn_fields w

theorem packXyn_of_class_n {w : Word} {c n : BitVec 4} (hc : fieldClass w = c) (hn : fieldN w = n) :
    packXyn c (fieldX w) (fieldY w) n = w :=
  hn ▸ packXyn_of_class hc

theorem encode_of_decodeClass8 {w : Word} {i : Instr} (hc : fieldClass w = 0x8#4) (h : decodeClass8 w = .ok i) :
    encode i = w := by
  unfold decodeClass8 at h
  split at h <;> cases h <;> exact packXyn_of_class_n hc ‹_›

theorem encode_of_decodeClassE {w : Word} {i : Instr} (hc : fieldClass w = 0xE#4) (h : decodeClassE w = .ok i) :
    encode i = w := by
  unfold decodeClassE at h
  split at h <;> cases h <;> exact packXkk_of_class_kk hc ‹_›

theorem encode_of_decodeClassF {w : Word} {i : Instr} (hc : fieldClass w = 0xF#4) (h : decodeClassF w = .ok i) :
    encode i = w := by
  unfold decodeClassF at h
  split at h <;> cases h <;> exact packXkk_of_class_kk hc ‹_›

/-- Only the word that encodes an instruction decodes to it (30_encoding.md, sections 1 to 3). -/
theorem encode_of_decodeWord {w : Word} {i : Instr} (h : decodeWord w = .ok i) : encode i = w := by
  unfold decodeWord at h
  split at h
  case h_1 =>
    split at h
    · next hw => cases h; exact hw.symm
    · split at h
      · next hw => cases h; exact hw.symm
      · cases h
  case h_2 hc | h_3 hc | h_11 hc | h_12 hc => cases h; exact packNnn_of_class hc
  case h_4 hc | h_5 hc | h_7 hc | h_8 hc | h_13 hc => cases h; exact packXkk_of_class hc
  case h_6 hc | h_10 hc =>
    split at h
    · next hn => cases h; exact packXyn_of_class_n hc hn
    · cases h
  case h_14 hc => cases h; exact packXyn_of_class hc
  case h_9 hc => exact encode_of_decodeClass8 hc h
  case h_15 hc => exact encode_of_decodeClassE hc h
  case h_16 =>
    have hc : fieldClass w = 0xF#4 := by simp only [imp_false] at *; bv_omega
    exact encode_of_decodeClassF hc h

/-- The word of every instruction matches the instruction's row, which stands in the map. -/
theorem encodesInRow : ∀ i : Instr, Laws.EncodesInRow.Statement i
  | .cls => Laws.EncodesInRow.cls
  | .ret => Laws.EncodesInRow.ret
  | .jp nnn => Laws.EncodesInRow.jp nnn
  | .call nnn => Laws.EncodesInRow.call nnn
  | .seVxKk x kk => Laws.EncodesInRow.seVxKk x kk
  | .sneVxKk x kk => Laws.EncodesInRow.sneVxKk x kk
  | .seVxVy x y => Laws.EncodesInRow.seVxVy x y
  | .ldVxKk x kk => Laws.EncodesInRow.ldVxKk x kk
  | .addVxKk x kk => Laws.EncodesInRow.addVxKk x kk
  | .ldVxVy x y => Laws.EncodesInRow.ldVxVy x y
  | .orVxVy x y => Laws.EncodesInRow.orVxVy x y
  | .andVxVy x y => Laws.EncodesInRow.andVxVy x y
  | .xorVxVy x y => Laws.EncodesInRow.xorVxVy x y
  | .addVxVy x y => Laws.EncodesInRow.addVxVy x y
  | .subVxVy x y => Laws.EncodesInRow.subVxVy x y
  | .shrVxVy x y => Laws.EncodesInRow.shrVxVy x y
  | .subnVxVy x y => Laws.EncodesInRow.subnVxVy x y
  | .shlVxVy x y => Laws.EncodesInRow.shlVxVy x y
  | .sneVxVy x y => Laws.EncodesInRow.sneVxVy x y
  | .ldINnn nnn => Laws.EncodesInRow.ldINnn nnn
  | .jpV0Nnn nnn => Laws.EncodesInRow.jpV0Nnn nnn
  | .rndVxKk x kk => Laws.EncodesInRow.rndVxKk x kk
  | .drwVxVyN x y n => Laws.EncodesInRow.drwVxVyN x y n
  | .skpVx x => Laws.EncodesInRow.skpVx x
  | .sknpVx x => Laws.EncodesInRow.sknpVx x
  | .ldVxDt x => Laws.EncodesInRow.ldVxDt x
  | .ldVxK x => Laws.EncodesInRow.ldVxK x
  | .ldDtVx x => Laws.EncodesInRow.ldDtVx x
  | .ldStVx x => Laws.EncodesInRow.ldStVx x
  | .addIVx x => Laws.EncodesInRow.addIVx x
  | .ldFVx x => Laws.EncodesInRow.ldFVx x
  | .ldBVx x => Laws.EncodesInRow.ldBVx x
  | .ldMiVx x => Laws.EncodesInRow.ldMiVx x
  | .ldVxMi x => Laws.EncodesInRow.ldVxMi x

/-- A word that decodes matches the row of its instruction (30_encoding.md R75). -/
theorem opRow_of_decodeWord {w : Word} {i : Instr} (h : decodeWord w = .ok i) :
    i.opRow ∈ opcodeRows ∧ i.opRow.admits w = true := by
  obtain ⟨hadmits, hrow⟩ := encodesInRow i
  exact ⟨hrow, encode_of_decodeWord h ▸ hadmits⟩

/-! ### Words of no row -/

theorem decodeWord_error_of_no_row {w : Word} (h : ∀ r ∈ opcodeRows, r.admits w = false) :
    ∃ e, decodeWord w = .error e := by
  cases hd : decodeWord w with
  | error e => exact ⟨e, rfl⟩
  | ok i =>
    obtain ⟨hrow, hadmits⟩ := opRow_of_decodeWord hd
    exact absurd hadmits (by simp [h _ hrow])

end Sys2Proof

namespace Sys2Proof.Machine

/-- An illegal word raises DecodeError (40_step_dispatch.md R92). -/
theorem step_of_decodeWord_error {s : State} {e : Illegal} (hrun : s.run = .running)
    (h : decodeWord (fetchWord s) = .error e) : step s = .fault .decodeError := by
  simp only [step, hrun, stepRunning, h, raise]

end Sys2Proof.Machine

namespace Sys2Proof

open Sys2Proof.Machine

/-- Settles O3: a row and the decoder look at the same fields of the word, and a decoded word is the word of its
instruction. -/
theorem decodingFollowsOpcodeMap : Obligations.DecodingFollowsOpcodeMap := by
  intro w
  refine ⟨fun r hr h => decodesTo_of_admits hr h, fun i h => opRow_of_decodeWord h, fun h => ?_⟩
  obtain ⟨e, he⟩ := decodeWord_error_of_no_row h
  exact ⟨⟨e, he⟩, fun s hrun hs => step_of_decodeWord_error hrun (hs ▸ he)⟩

end Sys2Proof
end

section
/-! The `step` of RUNNING (40_step_dispatch.md R92): the number it fetches, the handler it runs on a legal word, and
the state an error leaves. -/

namespace Sys2Proof.Machine

/-- An address is wrapped before the access (20_memory.md R51). -/
theorem memRead_mod (s : State) (a : Nat) : memRead s (a % 0x1000) = memRead s a :=
  Memory.read_wrapAddr s.config.font s.mem a

theorem toNat_fetchWord (s : State) :
    (fetchWord s).toNat = (memRead s s.pc.toNat).toNat * 256 + (memRead s (s.pc.toNat + 1)).toNat :=
  toNat_wordOfBytes _ _

/-- A legal word runs its handler, and `step` adds nothing to it (40_step_dispatch.md R92). -/
theorem step_of_decodeWord_ok {s : State} {i : Instr} (hrun : s.run = .running)
    (h : decodeWord (fetchWord s) = .ok i) : step s = exec i s := by
  simp only [step, hrun, stepRunning, h]

/-- An erroring `step` changes no state at all (40_step_dispatch.md R96). -/
theorem perform_step_of_fault {s : State} {f : Fault} (h : step s = .fault f) :
    perform .step s = (s, .error f) := by
  simp only [perform, h, afterOutcome]

end Sys2Proof.Machine

namespace Sys2Proof

open Sys2Proof.Machine

/-- Settles O7: each clause is a law of the fetch, of `step` on an illegal or a legal word, or of `perform`. -/
theorem stepRunsTheDecodedInstruction : Obligations.StepRunsTheDecodedInstruction := by
  intro s hrun
  have hfetch : (fetchWord s).toNat = (memRead s (s.pc.toNat % 0x1000)).toNat * 256 +
      (memRead s ((s.pc.toNat + 1) % 0x1000)).toNat := by
    rw [memRead_mod, memRead_mod, toNat_fetchWord]
  exact ⟨hfetch, fun _ herr => step_of_decodeWord_error hrun herr, fun _ hok => step_of_decodeWord_ok hrun hok,
    fun _ hfault => perform_step_of_fault hfault⟩

end Sys2Proof
end

section
/-! The jump and the comparing skips of 41_flow_stack.md: a handler that writes PC alone keeps every other element, and
a skip is its condition handed to `skipIf`. -/

namespace Sys2Proof.Machine

/-! ### Writing PC alone -/

theorem sameBut_setPc (s : State) (a : Word) : SameBut [] [] s (s.setPc a) := by
  simp [SameBut]

/-- A sum that fits in 16 bits does not wrap (10_state.md R28). -/
theorem pcPlus_of_pc_eq_add {s t : State} {a : Word} (h : t.pc = s.pc + a) : PcPlus a.toNat s t := by
  intro hfits
  rw [h, BitVec.toNat_add_of_lt hfits]

theorem pcPlus_four_skipIf_true (s : State) : PcPlus 4 s (s.skipIf true) :=
  pcPlus_of_pc_eq_add (a := 4) rfl

theorem pcPlus_two_skipIf_false (s : State) : PcPlus 2 s (s.skipIf false) :=
  pcPlus_of_pc_eq_add (a := 2) rfl

/-- An instruction that ends in `skipIf b` moves PC as `b` says and changes nothing else, whatever conditions
decide `b`. -/
theorem skips_of_exec_eq_skipIf {i : Instr} {s : State} {b : Bool} {taken passed : Prop}
    (hexec : exec i s = .next (s.skipIf b)) (htaken : taken → b = true) (hpassed : passed → b = false) :
    ∃ t, exec i s = .next t ∧ SameBut [] [] s t ∧ (taken → PcPlus 4 s t) ∧ (passed → PcPlus 2 s t) := by
  refine ⟨s.skipIf b, hexec, sameBut_setPc s _, fun h => ?_, fun h => ?_⟩
  · rw [htaken h]
    exact pcPlus_four_skipIf_true s
  · rw [hpassed h]
    exact pcPlus_two_skipIf_false s

/-! ### The handlers (41_flow_stack.md R100, R103 to R106) -/

theorem exec_jp (nnn : BitVec 12) (s : State) : exec (.jp nnn) s = .next (s.setPc (immAddr nnn)) := rfl

theorem exec_seVxKk (x : RegIdx) (kk : Byte) (s : State) :
    exec (.seVxKk x kk) s = .next (s.skipIf (s.reg x == kk)) := rfl

theorem exec_sneVxKk (x : RegIdx) (kk : Byte) (s : State) :
    exec (.sneVxKk x kk) s = .next (s.skipIf (s.reg x != kk)) := rfl

theorem exec_seVxVy (x y : RegIdx) (s : State) :
    exec (.seVxVy x y) s = .next (s.skipIf (s.reg x == s.reg y)) := rfl

theorem exec_sneVxVy (x y : RegIdx) (s : State) :
    exec (.sneVxVy x y) s = .next (s.skipIf (s.reg x != s.reg y)) := rfl

end Sys2Proof.Machine

namespace Sys2Proof

open Sys2Proof.Machine

/-- Settles O12: the handler writes PC alone, and the immediate is its own number in 16 bits. -/
theorem jumpGoesToItsAddress : Obligations.JumpGoesToItsAddress := by
  intro nnn s
  exact ⟨toNat_packNnn 0x1 nnn, s.setPc (immAddr nnn), exec_jp nnn s, toNat_immAddr nnn, sameBut_setPc s _⟩

/-- Settles O18: both handlers are skips, on equality with the immediate and on its negation. -/
theorem byteSkipsCompareWithImmediate : Obligations.ByteSkipsCompareWithImmediate := by
  intro x kk s
  exact ⟨toNat_packXkk 0x3 x kk, toNat_packXkk 0x4 x kk,
    skips_of_exec_eq_skipIf (exec_seVxKk x kk s) beq_iff_eq.mpr beq_eq_false_iff_ne.mpr,
    skips_of_exec_eq_skipIf (exec_sneVxKk x kk s) bne_iff_ne.mpr bne_eq_false_iff_eq.mpr⟩

/-- Settles O19: both handlers are skips, on equality of the two registers and on its negation. -/
theorem registerSkipsCompareRegisters : Obligations.RegisterSkipsCompareRegisters := by
  intro x y s
  exact ⟨toNat_packXyn 0x5 x y 0, toNat_packXyn 0x9 x y 0,
    skips_of_exec_eq_skipIf (exec_seVxVy x y s) beq_iff_eq.mpr beq_eq_false_iff_ne.mpr,
    skips_of_exec_eq_skipIf (exec_sneVxVy x y s) bne_iff_ne.mpr bne_eq_false_iff_eq.mpr⟩

end Sys2Proof
end

section
/-! The register instructions of 42_alu.md. A handler ends in one of two ways: it writes V[x] and advances, or it writes
V[x], then the flag in V[15], and advances. Each end is described once; an instruction is its end with its own values. -/

namespace Sys2Proof.Machine

/-! ### The two ends -/

theorem sameBut_advance {parts : List Part} {xs : List RegIdx} {s t : State} (h : SameBut parts xs s t) :
    SameBut parts xs s t.advance := h

theorem pcPlus_two_advance {s t : State} (h : t.pc = s.pc) : PcPlus 2 s t.advance :=
  pcPlus_of_pc_eq_add (a := 2) (congrArg (· + 2) h)

theorem sameBut_setReg (s : State) (x : RegIdx) (b : Byte) : SameBut [] [x] s (s.setReg x b) := by
  have hregs : ∀ r, r ∉ [x] → (s.setReg x b).reg r = s.reg r := fun r hr => by
    rw [State.setReg_reg, if_neg (by simpa using hr)]
  exact ⟨hregs, by simp⟩

theorem sameBut_writeFlagged (s : State) (x : RegIdx) (b f : Byte) :
    SameBut [] [x, 15] s (s.writeFlagged x b f) := by
  have hregs : ∀ r, r ∉ [x, 15] → (s.writeFlagged x b f).reg r = s.reg r := fun r hr => by
    obtain ⟨hx, h15⟩ : r ≠ x ∧ r ≠ 15 := by simpa using hr
    rw [State.writeFlagged_reg, if_neg h15, if_neg hx]
  exact ⟨hregs, by simp⟩

/-- An instruction that writes `b` to V[x] and advances changes V[x] and PC alone, V[15] included unless x = 15. -/
theorem writesReg_of_exec_eq {i : Instr} {s : State} {x : RegIdx} {b : Byte}
    (hexec : exec i s = .next (s.setReg x b).advance) :
    ∃ t, exec i s = .next t ∧ t.reg x = b ∧ PcPlus 2 s t ∧ SameBut [] [x] s t := by
  refine ⟨(s.setReg x b).advance, hexec, ?_, pcPlus_two_advance rfl, sameBut_advance (sameBut_setReg s x b)⟩
  rw [State.advance_reg, State.setReg_reg, if_pos rfl]

/-- An instruction that writes `b` to V[x], then the flag `f`, and advances: the flag is written last, so it wins when
x = 15 (10_state.md R25). -/
theorem writesFlagged_of_exec_eq {i : Instr} {s : State} {x : RegIdx} {b f : Byte}
    (hexec : exec i s = .next (s.writeFlagged x b f).advance) :
    ∃ t, exec i s = .next t ∧ (x ≠ 15 → t.reg x = b) ∧ t.reg 15 = f ∧ PcPlus 2 s t ∧ SameBut [] [x, 15] s t := by
  refine ⟨(s.writeFlagged x b f).advance, hexec, fun hx => ?_, ?_, pcPlus_two_advance rfl,
    sameBut_advance (sameBut_writeFlagged s x b f)⟩
  · rw [State.advance_reg, State.writeFlagged_reg, if_neg hx, if_pos rfl]
  · rw [State.advance_reg, State.writeFlagged_reg, if_pos rfl]

/-! ### The handlers (42_alu.md R111 to R121) -/

theorem exec_ldVxKk (x : RegIdx) (kk : Byte) (s : State) :
    exec (.ldVxKk x kk) s = .next (s.setReg x kk).advance := rfl

theorem exec_addVxKk (x : RegIdx) (kk : Byte) (s : State) :
    exec (.addVxKk x kk) s = .next (s.setReg x (s.reg x + kk)).advance := rfl

theorem exec_ldVxVy (x y : RegIdx) (s : State) :
    exec (.ldVxVy x y) s = .next (s.setReg x (s.reg y)).advance := rfl

theorem exec_orVxVy (x y : RegIdx) (s : State) :
    exec (.orVxVy x y) s = .next (s.setReg x (s.reg x ||| s.reg y)).advance := rfl

theorem exec_andVxVy (x y : RegIdx) (s : State) :
    exec (.andVxVy x y) s = .next (s.setReg x (s.reg x &&& s.reg y)).advance := rfl

theorem exec_xorVxVy (x y : RegIdx) (s : State) :
    exec (.xorVxVy x y) s = .next (s.setReg x (s.reg x ^^^ s.reg y)).advance := rfl

theorem exec_addVxVy (x y : RegIdx) (s : State) :
    exec (.addVxVy x y) s =
      .next (s.writeFlagged x (s.reg x + s.reg y) (carryFlag (s.reg x) (s.reg y))).advance := rfl

theorem exec_subVxVy (x y : RegIdx) (s : State) :
    exec (.subVxVy x y) s =
      .next (s.writeFlagged x (s.reg x - s.reg y) (noBorrowFlag (s.reg x) (s.reg y))).advance := rfl

theorem exec_subnVxVy (x y : RegIdx) (s : State) :
    exec (.subnVxVy x y) s =
      .next (s.writeFlagged x (s.reg y - s.reg x) (noBorrowFlag (s.reg y) (s.reg x))).advance := rfl

theorem exec_shrVxVy (x y : RegIdx) (s : State) :
    exec (.shrVxVy x y) s =
      .next (s.writeFlagged x (shiftSource s x y >>> 1) (lowBitFlag (shiftSource s x y))).advance := rfl

theorem exec_shlVxVy (x y : RegIdx) (s : State) :
    exec (.shlVxVy x y) s =
      .next (s.writeFlagged x (shiftSource s x y <<< 1) (highBitFlag (shiftSource s x y))).advance := rfl

/-! ### The results as numbers -/

/-- The subtraction of bytes is that of the integers modulo 256, a borrow included. -/
theorem intCast_toNat_sub (a b : Byte) : ((a - b).toNat : Int) = ((a.toNat : Int) - b.toNat) % 256 := by
  rw [BitVec.toNat_sub]
  omega

theorem toNat_ushiftRight_one (b : Byte) : (b >>> 1).toNat = b.toNat / 2 := by
  rw [BitVec.toNat_ushiftRight, Nat.shiftRight_one]

theorem toNat_shiftLeft_one (b : Byte) : (b <<< 1).toNat = b.toNat * 2 % 256 := by
  rw [BitVec.toNat_shiftLeft, Nat.shiftLeft_eq]

end Sys2Proof.Machine

namespace Sys2Proof

open Sys2Proof.Machine

/-- Format XY as a number, with the class and the low nibble first as the opcode map writes them (30_encoding.md R72). -/
theorem toNat_packXyn_eq_opcode_add (c : BitVec 4) (x y : RegIdx) (n : BitVec 4) :
    (packXyn c x y n).toNat = c.toNat * 0x1000 + n.toNat + x.val * 0x100 + y.val * 0x10 := by
  rw [toNat_packXyn]
  ring

/-- Settles O22: both handlers write the operand to V[x] and advance. -/
theorem registerLoadsCopyTheOperand : Obligations.RegisterLoadsCopyTheOperand := by
  intro x y kk s
  exact ⟨toNat_packXkk 0x6 x kk, toNat_packXyn_eq_opcode_add 0x8 x y 0x0,
    writesReg_of_exec_eq (exec_ldVxKk x kk s), writesReg_of_exec_eq (exec_ldVxVy x y s)⟩

/-- Settles O23: the handler writes the sum to V[x] and no flag. -/
theorem immediateAddWrapsWithoutFlag : Obligations.ImmediateAddWrapsWithoutFlag := by
  intro x kk s
  obtain ⟨t, ht, hx, hpc, hframe⟩ := writesReg_of_exec_eq (exec_addVxKk x kk s)
  exact ⟨toNat_packXkk 0x7 x kk, t, ht, by rw [hx, BitVec.toNat_add], hpc, hframe⟩

/-- Settles O24: the three handlers write the bitwise or, and, xor to V[x] and no flag. -/
theorem logicActsBitByBitWithoutFlag : Obligations.LogicActsBitByBitWithoutFlag := by
  intro x y s
  refine ⟨toNat_packXyn_eq_opcode_add 0x8 x y 0x1, toNat_packXyn_eq_opcode_add 0x8 x y 0x2,
    toNat_packXyn_eq_opcode_add 0x8 x y 0x3, ?or, ?and, ?xor⟩
  case or =>
    obtain ⟨t, ht, hx, hpc, hframe⟩ := writesReg_of_exec_eq (exec_orVxVy x y s)
    exact ⟨t, ht, hpc, hframe, fun k => by rw [hx, BitVec.getLsbD_or]⟩
  case and =>
    obtain ⟨t, ht, hx, hpc, hframe⟩ := writesReg_of_exec_eq (exec_andVxVy x y s)
    exact ⟨t, ht, hpc, hframe, fun k => by rw [hx, BitVec.getLsbD_and]⟩
  case xor =>
    obtain ⟨t, ht, hx, hpc, hframe⟩ := writesReg_of_exec_eq (exec_xorVxVy x y s)
    exact ⟨t, ht, hpc, hframe, fun k => by rw [hx, BitVec.getLsbD_xor]⟩

/-- Settles O25: the flag written after the sum is the carry. -/
theorem registerAddSetsCarry : Obligations.RegisterAddSetsCarry := by
  intro x y s
  obtain ⟨t, ht, hx, hflag, hpc, hframe⟩ := writesFlagged_of_exec_eq (exec_addVxVy x y s)
  exact ⟨toNat_packXyn_eq_opcode_add 0x8 x y 0x4, t, ht, fun hne => by rw [hx hne, BitVec.toNat_add],
    by rw [hflag, toNat_carryFlag], hpc, hframe⟩

/-- Settles O26: the two handlers differ in the order of the operands; the flag written after the difference says that
nothing was borrowed. -/
theorem subtractionsSetNoBorrow : Obligations.SubtractionsSetNoBorrow := by
  intro x y s
  refine ⟨toNat_packXyn_eq_opcode_add 0x8 x y 0x5, toNat_packXyn_eq_opcode_add 0x8 x y 0x7, ?sub, ?subn⟩
  case sub =>
    obtain ⟨t, ht, hx, hflag, hpc, hframe⟩ := writesFlagged_of_exec_eq (exec_subVxVy x y s)
    exact ⟨t, ht, fun hne => by rw [hx hne, intCast_toNat_sub], by rw [hflag, toNat_noBorrowFlag], hpc, hframe⟩
  case subn =>
    obtain ⟨t, ht, hx, hflag, hpc, hframe⟩ := writesFlagged_of_exec_eq (exec_subnVxVy x y s)
    exact ⟨t, ht, fun hne => by rw [hx hne, intCast_toNat_sub], by rw [hflag, toNat_noBorrowFlag], hpc, hframe⟩

/-- Settles O27: the byte named by the quirk is the handlers' shift source; the flag written after the result is the bit
that the shift drops. -/
theorem shiftsFollowTheQuirk : Obligations.ShiftsFollowTheQuirk := by
  intro x y s b hb
  have hsource : shiftSource s x y = b := hb.symm
  refine ⟨toNat_packXyn_eq_opcode_add 0x8 x y 0x6, toNat_packXyn_eq_opcode_add 0x8 x y 0xE, ?shr, ?shl⟩
  case shr =>
    obtain ⟨t, ht, hx, hflag, hpc, hframe⟩ := writesFlagged_of_exec_eq (exec_shrVxVy x y s)
    rw [hsource] at hx hflag
    exact ⟨t, ht, fun hne => by rw [hx hne, toNat_ushiftRight_one], by rw [hflag, toNat_lowBitFlag], hpc, hframe⟩
  case shl =>
    obtain ⟨t, ht, hx, hflag, hpc, hframe⟩ := writesFlagged_of_exec_eq (exec_shlVxVy x y s)
    rw [hsource] at hx hflag
    exact ⟨t, ht, fun hne => by rw [hx hne, toNat_shiftLeft_one], by rw [hflag, toNat_highBitFlag], hpc, hframe⟩

end Sys2Proof
end

section
/-! Annn and Fx65 of 43_index_memory.md: each writes one kind of element, I or the registers V[0] to V[x], and
advances. -/

namespace Sys2Proof.Machine

/-! ### Writing I alone -/

theorem sameBut_setIndex (s : State) (a : Word) : SameBut [.index] [] s (s.setIndex a) := by
  simp [SameBut]

theorem exec_ldINnn (nnn : BitVec 12) (s : State) :
    exec (.ldINnn nnn) s = .next (s.setIndex (immAddr nnn)).advance := rfl

/-! ### Loading a register range -/

theorem mem_regsUpTo_iff {r x : RegIdx} : r ∈ regsUpTo x ↔ r ≤ x := by
  simp [regsUpTo]

/-- The registers after Fx65: V[0] to V[x] come from memory, the others stay. -/
theorem reg_setRegs_loadRegs (s : State) (x r : RegIdx) :
    (s.setRegs (loadRegs s (x.val + 1))).reg r = if r ≤ x then memRead s (s.i.toNat + r.val) else s.reg r := by
  rw [State.setRegs_reg, getElem_loadRegs s _ r x.isLt]
  simp only [Nat.lt_succ_iff, Fin.le_def]

theorem sameBut_setRegs_loadRegs (s : State) (x : RegIdx) :
    SameBut [] (regsUpTo x) s (s.setRegs (loadRegs s (x.val + 1))) := by
  have hregs : ∀ r, r ∉ regsUpTo x → (s.setRegs (loadRegs s (x.val + 1))).reg r = s.reg r := fun r hr => by
    rw [reg_setRegs_loadRegs, if_neg (mt mem_regsUpTo_iff.mpr hr)]
  exact ⟨hregs, by simp⟩

theorem exec_ldVxMi (x : RegIdx) (s : State) :
    exec (.ldVxMi x) s = .next (s.setRegs (loadRegs s (x.val + 1))).advance := rfl

end Sys2Proof.Machine

namespace Sys2Proof

open Sys2Proof.Machine

/-- Settles O31: the handler writes I alone and advances, and the immediate is its own number in 16 bits. -/
theorem indexLoadClearsHighBits : Obligations.IndexLoadClearsHighBits := by
  intro nnn s
  exact ⟨toNat_packNnn 0xA nnn, (s.setIndex (immAddr nnn)).advance, exec_ldINnn nnn s, toNat_immAddr nnn,
    pcPlus_two_advance rfl, sameBut_advance (sameBut_setIndex s _)⟩

/-- Format XS as a number, with the class and the low byte first as the opcode map writes them (30_encoding.md R72). -/
theorem toNat_packXkk_eq_opcode_add (c : BitVec 4) (x : RegIdx) (kk : Byte) :
    (packXkk c x kk).toNat = c.toNat * 0x1000 + kk.toNat + x.val * 0x100 := by
  rw [toNat_packXkk]
  ring

/-- Settles O36: the handler writes the registers that the load leaves and advances; every one up to V[x] is the byte
of memory at its place. -/
theorem registerLoadReadsTheRange : Obligations.RegisterLoadReadsTheRange := by
  intro x s
  have hload : ∀ r : RegIdx, r ≤ x →
      (s.setRegs (loadRegs s (x.val + 1))).advance.reg r = memRead s (s.i.toNat + r.val) := fun r hr => by
    rw [State.advance_reg, reg_setRegs_loadRegs, if_pos hr]
  exact ⟨toNat_packXkk_eq_opcode_add 0xF x 0x65, (s.setRegs (loadRegs s (x.val + 1))).advance, exec_ldVxMi x s,
    hload, pcPlus_two_advance rfl, sameBut_advance (sameBut_setRegs_loadRegs s x)⟩

end Sys2Proof
end

section
/-! 00E0 of 44_display.md: it writes the display alone and advances. -/

namespace Sys2Proof.Machine

theorem sameBut_setFb (s : State) (d : Display) : SameBut [.display] [] s (s.setFb d) := by
  simp [SameBut]

theorem exec_cls (s : State) : exec .cls s = .next (s.setFb Display.clear).advance := rfl

end Sys2Proof.Machine

namespace Sys2Proof

open Sys2Proof.Machine

/-- Settles O39: the handler writes the clear display, which has no pixel on, and advances. -/
theorem clearScreenClearsEveryPixel : Obligations.ClearScreenClearsEveryPixel := by
  intro s
  have hpixels : ∀ px py, (s.setFb Display.clear).advance.fb.pixel px py = false := fun px py => by
    rw [State.advance_fb, State.setFb_fb, Display.pixel_clear]
  exact ⟨rfl, (s.setFb Display.clear).advance, exec_cls s, hpixels, pcPlus_two_advance rfl,
    sameBut_advance (sameBut_setFb s _)⟩

end Sys2Proof
end

section
/-! The timer instructions of 45_timer_keypad.md: Fx07 writes V[x] alone, Fx15 DT alone, Fx18 ST alone, and each then
advances. -/

namespace Sys2Proof.Machine

theorem sameBut_setDt (s : State) (b : Byte) : SameBut [.delayTimer] [] s (s.setDt b) := by
  simp [SameBut]

theorem sameBut_setSt (s : State) (b : Byte) : SameBut [.soundTimer] [] s (s.setSt b) := by
  simp [SameBut]

/-- The sound output is on exactly when ST > 0 (60_exceptions.md R177). -/
theorem soundOut_eq_true_iff (s : State) : soundOut s = true ↔ 0 < s.st.toNat := decide_eq_true_iff

theorem exec_ldVxDt (x : RegIdx) (s : State) : exec (.ldVxDt x) s = .next (s.setReg x s.dt).advance := rfl

theorem exec_ldDtVx (x : RegIdx) (s : State) : exec (.ldDtVx x) s = .next (s.setDt (s.reg x)).advance := rfl

theorem exec_ldStVx (x : RegIdx) (s : State) : exec (.ldStVx x) s = .next (s.setSt (s.reg x)).advance := rfl

end Sys2Proof.Machine

namespace Sys2Proof

open Sys2Proof.Machine

/-- Settles O42: each handler writes its one destination and advances; the sound output after Fx18 is that of the byte
written to ST. -/
theorem timerTransfersCopyTheByte : Obligations.TimerTransfersCopyTheByte := by
  intro x s
  have hdt : (s.setDt (s.reg x)).advance.dt = s.reg x := by rw [State.advance_dt, State.setDt_dt]
  have hst : (s.setSt (s.reg x)).advance.st = s.reg x := by rw [State.advance_st, State.setSt_st]
  have hsound : soundOut (s.setSt (s.reg x)).advance = true ↔ 0 < (s.reg x).toNat := by
    rw [soundOut_eq_true_iff, hst]
  refine ⟨toNat_packXkk_eq_opcode_add 0xF x 0x07, toNat_packXkk_eq_opcode_add 0xF x 0x15,
    toNat_packXkk_eq_opcode_add 0xF x 0x18, ?fx07, ?fx15, ?fx18⟩
  case fx07 => exact writesReg_of_exec_eq (exec_ldVxDt x s)
  case fx15 =>
    exact ⟨(s.setDt (s.reg x)).advance, exec_ldDtVx x s, hdt, pcPlus_two_advance rfl,
      sameBut_advance (sameBut_setDt s _)⟩
  case fx18 =>
    exact ⟨(s.setSt (s.reg x)).advance, exec_ldStVx x s, hst, pcPlus_two_advance rfl,
      sameBut_advance (sameBut_setSt s _), hsound⟩

end Sys2Proof
end

section
/-! The outputs and the two stack errors of 60_exceptions.md. The display output is the 32 by 64 pixel rows laid end to
end; a handler that faults makes `step` fault, and the host's `step` keeps the state. -/

namespace Sys2Proof.Machine

/-! ### The display output (60_exceptions.md R176) -/

/-- `displayOut` is the library's flattening of the rows. -/
theorem displayOut_eq_toList_flatten (s : State) : displayOut s = s.fb.flatten.toList := by
  simp only [displayOut, List.flatMap_def, Vector.flatten, Vector.toList, Array.toList_flatten, Array.toList_map,
    List.map_map, Function.comp_def]

theorem length_displayOut (s : State) : (displayOut s).length = 2048 := by
  rw [displayOut_eq_toList_flatten, Vector.length_toList]

/-- Element k of the flattened display is pixel (k mod 64, k / 64), and y * 64 + x has these two parts. -/
theorem displayOut_getElem? (s : State) (x : Fin 64) (y : Fin 32) :
    (displayOut s)[y.val * 64 + x.val]? = some (s.fb.pixel x y) := by
  have hrow : (y.val * 64 + x.val) / 64 = y.val := by omega
  have hcolumn : (y.val * 64 + x.val) % 64 = x.val := by omega
  have hbound : y.val * 64 + x.val < 32 * 64 := by omega
  rw [displayOut_eq_toList_flatten, Vector.getElem?_toList, Vector.getElem?_eq_getElem hbound, Vector.getElem_flatten]
  simp only [hrow, hcolumn, Display.pixel]

/-! ### Faults of a handler (40_step_dispatch.md R92, R96) -/

/-- A fault of the handler is the fault of `step`, and the host's `step` leaves the state as it was. -/
theorem step_and_perform_of_exec_fault {s : State} {i : Instr} {f : Fault} (hrun : s.run = .running)
    (hdecode : decodeWord (fetchWord s) = .ok i) (hexec : exec i s = .fault f) :
    step s = .fault f ∧ perform .step s = (s, .error f) := by
  have hstep : step s = .fault f := (step_of_decodeWord_ok hrun hdecode).trans hexec
  exact ⟨hstep, perform_step_of_fault hstep⟩

theorem exec_call (nnn : BitVec 12) (s : State) : exec (.call nnn) s = execCall nnn s := rfl

theorem exec_ret (s : State) : exec .ret s = execRet s := rfl

theorem decodeWord_of_toNat_eq_ret {w : Word} (h : w.toNat = 0x00EE) : decodeWord w = .ok .ret := by
  obtain rfl : w = 0x00EE#16 := BitVec.eq_of_toNat_eq h
  rfl

end Sys2Proof.Machine

namespace Sys2Proof

open Sys2Proof.Machine

/-- Settles O51: the display output is the flattened display, read at y * 64 + x; the sound output is the test ST > 0. -/
theorem outputsFollowTheState : Obligations.OutputsFollowTheState := by
  intro s
  exact ⟨length_displayOut s, displayOut_getElem? s, soundOut_eq_true_iff s⟩

/-- Settles O14: CALL finds no free slot, so its handler faults before any write. -/
theorem callOnFullStackOverflows : Obligations.CallOnFullStackOverflows := by
  intro nnn s hsp
  have hexec : exec (.call nnn) s = .fault .stackOverflow := by
    rw [exec_call, execCall_full nnn s (by omega)]
  exact ⟨hexec, fun hrun hdecode => step_and_perform_of_exec_fault hrun hdecode hexec⟩

/-- Settles O16: 0x00EE decodes to RET, which finds no live entry and faults before any write. -/
theorem returnOnEmptyStackUnderflows : Obligations.ReturnOnEmptyStackUnderflows := by
  intro s hsp hrun hfetch
  have hexec : exec .ret s = .fault .stackUnderflow := by
    rw [exec_ret, execRet_empty s (by omega)]
  exact step_and_perform_of_exec_fault hrun (decodeWord_of_toNat_eq_ret hfetch) hexec

end Sys2Proof
end

section
/-! The encoding read both ways (30_encoding.md): decoding gives an encoded instruction back, rows of the map exclude
each other, and the words that no instruction has are those of the table of illegal words. -/

namespace Sys2Proof

/-! ### Decoding an encoded instruction -/

/-- The decoder reads back the class and the operand fields that the encoder packed, and takes the arm of the
instruction. -/
theorem decodeWord_encode (i : Instr) : decodeWord (encode i) = .ok i := by
  cases i with
  | cls | ret => rfl
  | jp | call | ldINnn | jpV0Nnn =>
    simp only [encode, decodeWord, fieldClass_packNnn, fieldNnn_packNnn, BitVec.ofNat_eq_ofNat]
  | seVxKk | sneVxKk | ldVxKk | addVxKk | rndVxKk =>
    simp only [encode, decodeWord, fieldClass_packXkk, fieldX_packXkk, fieldKk_packXkk, BitVec.ofNat_eq_ofNat]
  | skpVx | sknpVx =>
    simp only [encode, decodeWord_of_classE (fieldClass_packXkk _ _ _), decodeClassE, fieldX_packXkk, fieldKk_packXkk,
      BitVec.ofNat_eq_ofNat]
  | ldVxDt | ldVxK | ldDtVx | ldStVx | addIVx | ldFVx | ldBVx | ldMiVx | ldVxMi =>
    simp only [encode, decodeWord_of_classF (fieldClass_packXkk _ _ _), decodeClassF, fieldX_packXkk, fieldKk_packXkk,
      BitVec.ofNat_eq_ofNat]
  | seVxVy | sneVxVy | drwVxVyN =>
    simp only [encode, decodeWord, fieldClass_packXyn, fieldX_packXyn, fieldY_packXyn, fieldN_packXyn,
      BitVec.ofNat_eq_ofNat, if_true]
  | ldVxVy | orVxVy | andVxVy | xorVxVy | addVxVy | subVxVy | shrVxVy | subnVxVy | shlVxVy =>
    simp only [encode, decodeWord, decodeClass8, fieldClass_packXyn, fieldX_packXyn, fieldY_packXyn, fieldN_packXyn,
      BitVec.ofNat_eq_ofNat]

/-- A word decodes to an instruction exactly when it is that instruction's word. -/
theorem decodeWord_eq_ok_iff {w : Word} {i : Instr} : decodeWord w = .ok i ↔ w = encode i :=
  ⟨fun h => (encode_of_decodeWord h).symm, fun h => h ▸ decodeWord_encode i⟩

/-! ### The table of illegal words (30_encoding.md R78) -/

/-- The line of the table of illegal words that a name stands for. -/
def Illegal.HasWord : Illegal → Word → Prop
  | .class0, w => w.toNat < 0x1000 ∧ w.toNat ≠ 0x00E0 ∧ w.toNat ≠ 0x00EE
  | .class5, w => w.toNat / 0x1000 = 5 ∧ w.toNat % 16 ≠ 0
  | .class8, w => w.toNat / 0x1000 = 8 ∧ w.toNat % 16 ∈ [8, 9, 0xA, 0xB, 0xC, 0xD, 0xF]
  | .class9, w => w.toNat / 0x1000 = 9 ∧ w.toNat % 16 ≠ 0
  | .classE, w => w.toNat / 0x1000 = 0xE ∧ w.toNat % 256 ∉ [0x9E, 0xA1]
  | .classF, w =>
    w.toNat / 0x1000 = 0xF ∧ w.toNat % 256 ∉ [0x07, 0x0A, 0x15, 0x18, 0x1E, 0x29, 0x33, 0x55, 0x65]

theorem fieldClass_eq_iff (w : Word) (c : BitVec 4) : fieldClass w = c ↔ w.toNat / 0x1000 = c.toNat := by
  rw [← toNat_fieldClass, BitVec.toNat_inj]

theorem fieldN_eq_iff (w : Word) (n : BitVec 4) : fieldN w = n ↔ w.toNat % 16 = n.toNat := by
  rw [← toNat_fieldN, BitVec.toNat_inj]

theorem fieldKk_eq_iff (w : Word) (kk : Byte) : fieldKk w = kk ↔ w.toNat % 256 = kk.toNat := by
  rw [← toNat_fieldKk, BitVec.toNat_inj]

/-- Class 8 rejects the low nibbles that no arm names. -/
theorem decodeClass8_eq_error_iff {w : Word} {e : Illegal} :
    decodeClass8 w = .error e ↔ .class8 = e ∧ w.toNat % 16 ∈ [8, 9, 0xA, 0xB, 0xC, 0xD, 0xF] := by
  unfold decodeClass8
  split
  case h_10 => simp_all [fieldN_eq_iff]; omega
  all_goals simp_all [fieldN_eq_iff]

theorem decodeClassE_eq_error_iff {w : Word} {e : Illegal} :
    decodeClassE w = .error e ↔ .classE = e ∧ w.toNat % 256 ∉ [0x9E, 0xA1] := by
  unfold decodeClassE
  split <;> simp_all [fieldKk_eq_iff]

theorem decodeClassF_eq_error_iff {w : Word} {e : Illegal} :
    decodeClassF w = .error e ↔
      .classF = e ∧ w.toNat % 256 ∉ [0x07, 0x0A, 0x15, 0x18, 0x1E, 0x29, 0x33, 0x55, 0x65] := by
  unfold decodeClassF
  split <;> simp_all [fieldKk_eq_iff]


/-- The decoder rejects a word under the name of the line of the table that the word is in. -/
theorem hasWord_of_decodeWord_error {w : Word} {e : Illegal} (h : decodeWord w = .error e) : e.HasWord w := by
  unfold decodeWord at h
  split at h
  case h_1 hc =>
    split at h
    · cases h
    · next hcls =>
      split at h
      · cases h
      · next hret =>
        cases h
        have hlt : w.toNat < 0x1000 := (Nat.div_eq_zero_iff_lt (by decide)).mp ((fieldClass_eq_iff w 0x0#4).mp hc)
        exact ⟨hlt, mt (BitVec.eq_of_toNat_eq (y := 0x00E0#16)) hcls, mt (BitVec.eq_of_toNat_eq (y := 0x00EE#16)) hret⟩
  case h_6 hc | h_10 hc =>
    split at h
    · cases h
    · next hn =>
      cases h
      exact ⟨(fieldClass_eq_iff w _).mp hc, mt (fieldN_eq_iff w 0#4).mpr hn⟩
  case h_9 hc =>
    obtain ⟨rfl, hn⟩ := decodeClass8_eq_error_iff.mp h
    exact ⟨(fieldClass_eq_iff w _).mp hc, hn⟩
  case h_15 hc =>
    obtain ⟨rfl, hk⟩ := decodeClassE_eq_error_iff.mp h
    exact ⟨(fieldClass_eq_iff w _).mp hc, hk⟩
  case h_16 =>
    have hc : fieldClass w = 0xF#4 := by simp only [imp_false] at *; bv_omega
    obtain ⟨rfl, hk⟩ := decodeClassF_eq_error_iff.mp h
    exact ⟨(fieldClass_eq_iff w _).mp hc, hk⟩
  all_goals cases h

/-- A word in a line of the table is rejected under that line's name. -/
theorem decodeWord_error_of_hasWord {w : Word} {e : Illegal} (h : e.HasWord w) : decodeWord w = .error e := by
  cases e with
  | class0 =>
    obtain ⟨hlt, hcls, hret⟩ := h
    have hc : fieldClass w = 0x0#4 := (fieldClass_eq_iff w _).mpr (Nat.div_eq_of_lt hlt)
    have hcls' : w ≠ 0x00E0#16 := fun hw => hcls (congrArg BitVec.toNat hw)
    have hret' : w ≠ 0x00EE#16 := fun hw => hret (congrArg BitVec.toNat hw)
    simp only [decodeWord, hc, if_neg hcls', if_neg hret']
  | class5 =>
    obtain ⟨hc, hn⟩ := h
    simp only [decodeWord, (fieldClass_eq_iff w 0x5#4).mpr hc, if_neg (mt (fieldN_eq_iff w 0#4).mp hn)]
  | class9 =>
    obtain ⟨hc, hn⟩ := h
    simp only [decodeWord, (fieldClass_eq_iff w 0x9#4).mpr hc, if_neg (mt (fieldN_eq_iff w 0#4).mp hn)]
  | class8 =>
    obtain ⟨hc, hn⟩ := h
    have hc : fieldClass w = 0x8#4 := (fieldClass_eq_iff w _).mpr hc
    rw [decodeWord, hc]
    exact decodeClass8_eq_error_iff.mpr ⟨rfl, hn⟩
  | classE =>
    obtain ⟨hc, hk⟩ := h
    rw [decodeWord_of_classE ((fieldClass_eq_iff w _).mpr hc)]
    exact decodeClassE_eq_error_iff.mpr ⟨rfl, hk⟩
  | classF =>
    obtain ⟨hc, hk⟩ := h
    rw [decodeWord_of_classF ((fieldClass_eq_iff w _).mpr hc)]
    exact decodeClassF_eq_error_iff.mpr ⟨rfl, hk⟩

theorem decodeWord_eq_error_iff {w : Word} {e : Illegal} : decodeWord w = .error e ↔ e.HasWord w :=
  ⟨hasWord_of_decodeWord_error, decodeWord_error_of_hasWord⟩

/-- Settles O1: the decoder reads back every field that the encoder packed. -/
theorem everyInstructionSurvivesEncoding : Obligations.EveryInstructionSurvivesEncoding :=
  decodeWord_encode

/-- Settles O2: the word is packed again from the fields that the decoder read. -/
theorem decodedInstructionDeterminesWord : Obligations.DecodedInstructionDeterminesWord :=
  fun _ _ => encode_of_decodeWord

/-- Settles O4: a word decodes to an instruction of every row that matches it, and it decodes to one instruction only. -/
theorem opcodeRowsNeverOverlap : Obligations.OpcodeRowsNeverOverlap := by
  intro w r hr r' hr' hadmits hadmits'
  obtain ⟨i, hi, rfl⟩ := decodesTo_of_admits hr hadmits
  obtain ⟨i', hi', rfl⟩ := decodesTo_of_admits hr' hadmits'
  rw [Except.ok.inj (hi.symm.trans hi')]

/-- Settles O5: each line of the table is the set of words that the decoder rejects under its name. -/
theorem illegalWordsAreThoseOfTheTable : Obligations.IllegalWordsAreThoseOfTheTable := by
  intro w
  exact ⟨decodeWord_eq_error_iff, decodeWord_eq_error_iff, decodeWord_eq_error_iff, decodeWord_eq_error_iff,
    decodeWord_eq_error_iff, decodeWord_eq_error_iff⟩

/-- Settles O6: each word written out is the encoding of its instruction, and two bytes make a word high byte first. -/
theorem sampleWordsDecode : Obligations.SampleWordsDecode :=
  ⟨decodeWord_encode .cls, decodeWord_encode (.jp 0xABC#12), decodeWord_encode (.seVxKk 3 0x2A#8),
    decodeWord_encode (.subnVxVy 1 2), decodeWord_encode (.drwVxVyN 0 1 2#4), decodeWord_encode (.ldFVx 4),
    decodeWord_encode (.shlVxVy 1 2)⟩

end Sys2Proof
end

section
/-! What an instruction can end in. Only CALL and RET can fail, and only on the stack (60_exceptions.md, section 1); every
other element is changed only by the instructions named for it (00_scope.md R13). Each fact goes through the instructions
once, and the later sections use it. -/

namespace Sys2Proof

/-- The parts of the state, other than V and PC, that an instruction writes. -/
def Instr.parts : Instr → List Machine.Part
  | .cls | .drwVxVyN _ _ _ => [.display]
  | .ret | .call _ => [.stack]
  | .ldINnn _ | .addIVx _ | .ldFVx _ => [.index]
  | .ldBVx _ | .ldMiVx _ => [.memory]
  | .ldDtVx _ => [.delayTimer]
  | .ldStVx _ => [.soundTimer]
  | .ldVxK _ => [.keyWait]
  | .rndVxKk _ _ => [.draws]
  | _ => []

theorem Instr.index_mem_parts_iff {i : Instr} :
    .index ∈ i.parts ↔ (∃ nnn, i = .ldINnn nnn) ∨ (∃ x, i = .addIVx x) ∨ ∃ x, i = .ldFVx x := by
  cases i <;> simp [Instr.parts]

theorem Instr.stack_mem_parts_iff {i : Instr} : .stack ∈ i.parts ↔ i = .ret ∨ ∃ nnn, i = .call nnn := by
  cases i <;> simp [Instr.parts]

theorem Instr.delayTimer_mem_parts_iff {i : Instr} : .delayTimer ∈ i.parts ↔ ∃ x, i = .ldDtVx x := by
  cases i <;> simp [Instr.parts]

theorem Instr.soundTimer_mem_parts_iff {i : Instr} : .soundTimer ∈ i.parts ↔ ∃ x, i = .ldStVx x := by
  cases i <;> simp [Instr.parts]

theorem Instr.display_mem_parts_iff {i : Instr} :
    .display ∈ i.parts ↔ i = .cls ∨ ∃ x y n, i = .drwVxVyN x y n := by
  cases i <;> simp [Instr.parts]

theorem Instr.keys_notMem_parts (i : Instr) : .keys ∉ i.parts := by
  cases i <;> simp [Instr.parts]

theorem Instr.keyWait_mem_parts_iff {i : Instr} : .keyWait ∈ i.parts ↔ ∃ x, i = .ldVxK x := by
  cases i <;> simp [Instr.parts]

theorem Instr.draws_mem_parts_iff {i : Instr} : .draws ∈ i.parts ↔ ∃ x kk, i = .rndVxKk x kk := by
  cases i <;> simp [Instr.parts]

/-- The registers that an instruction writes, the flag among them. -/
def Instr.writtenRegs (c : Config) (i : Instr) : List RegIdx :=
  if i.writesFlag c then i.destinations ++ [15] else i.destinations

theorem Instr.writtenRegs_addIVx (c : Config) (x : RegIdx) :
    (Instr.addIVx x).writtenRegs c = if c.quirkFx1eVf then [15] else [] := rfl

end Sys2Proof

namespace Sys2Proof.Machine

/-! ### The results -/

/-- Every instruction but CALL and RET completes in every state. -/
theorem exec_completes {i : Instr} (s : State) (hcall : ∀ nnn, i ≠ .call nnn) (hret : i ≠ .ret) :
    ∃ t, exec i s = .next t := by
  cases i with
  | call nnn => exact absurd rfl (hcall nnn)
  | ret => exact absurd rfl hret
  | _ => exact ⟨_, rfl⟩

/-- An instruction fails exactly as CALL on a full stack or RET on an empty one. -/
theorem exec_eq_fault_iff {i : Instr} {s : State} {f : Fault} :
    exec i s = .fault f ↔
      (f = .stackOverflow ∧ (∃ nnn, i = .call nnn) ∧ s.sp.val = 16) ∨
        (f = .stackUnderflow ∧ i = .ret ∧ s.sp.val = 0) := by
  by_cases hcall : ∃ nnn, i = .call nnn
  · obtain ⟨nnn, rfl⟩ := hcall
    rw [exec_call]
    by_cases hsp : s.sp.val < 16
    · simp [execCall_free nnn s hsp, hsp.ne]
    · have hfull : s.sp.val = 16 := by omega
      simp [execCall_full nnn s hsp, hfull, eq_comm]
  · by_cases hret : i = .ret
    · subst hret
      rw [exec_ret]
      by_cases hsp : 0 < s.sp.val
      · simp [execRet_live s hsp, hsp.ne']
      · have hempty : s.sp.val = 0 := by omega
        simp [execRet_empty s hsp, hempty, eq_comm]
    · obtain ⟨t, ht⟩ := exec_completes s (not_exists.mp hcall) hret
      simp [ht, hcall, hret]

theorem exec_ne_refused (i : Instr) (s : State) (r : Refusal) : exec i s ≠ .refused r := by
  by_cases hcall : ∃ nnn, i = .call nnn
  · obtain ⟨nnn, rfl⟩ := hcall
    rw [exec_call, execCall]
    cases s.push s.pc <;> nofun
  · by_cases hret : i = .ret
    · rw [hret, exec_ret, execRet]
      cases s.pop <;> nofun
    · obtain ⟨t, ht⟩ := exec_completes s (not_exists.mp hcall) hret
      simp [ht]

/-- CALL ends in a next state only with a free slot, and which one (41_flow_stack.md R101). -/
theorem exec_call_eq_next_iff {nnn : BitVec 12} {s t : State} :
    exec (.call nnn) s = .next t ↔ ∃ h : s.sp.val < 16,
      t = (s.setStack (s.stk.set s.sp.val s.pc h) ⟨s.sp.val + 1, by omega⟩).setPc (immAddr nnn) := by
  rw [exec_call]
  by_cases hsp : s.sp.val < 16
  · simp [execCall_free nnn s hsp, hsp, eq_comm]
  · simp [execCall_full nnn s hsp, hsp]

/-- RET ends in a next state only with a live entry, and which one (41_flow_stack.md R102). -/
theorem exec_ret_eq_next_iff {s t : State} :
    exec .ret s = .next t ↔ ∃ h : 0 < s.sp.val,
      t = (s.setStack s.stk ⟨s.sp.val - 1, by omega⟩).setPc (s.stk[s.sp.val - 1]'(by omega) + 2) := by
  rw [exec_ret]
  by_cases hsp : 0 < s.sp.val
  · simp [execRet_live s hsp, hsp, eq_comm]
  · simp [execRet_empty s hsp, hsp]

/-- Fx1E with its quirk off writes I alone (43_index_memory.md R131). -/
theorem exec_addIVx_of_quirk_off (x : RegIdx) {s : State} (h : s.config.quirkFx1eVf = false) :
    exec (.addIVx x) s = .next (s.setIndex (s.i + regWord (s.reg x))).advance := by
  simp [exec, execAddIVx, h]

/-- Fx1E with its quirk on writes I, then the overflow in V[15] (43_index_memory.md R131). -/
theorem exec_addIVx_of_quirk_on (x : RegIdx) {s : State} (h : s.config.quirkFx1eVf = true) :
    exec (.addIVx x) s =
      .next ((s.setIndex (s.i + regWord (s.reg x))).setReg 15 (indexOverflowFlag s.i (s.reg x))).advance := by
  simp [exec, execAddIVx, h]

/-! ### The frame, clause by clause -/

section
variable {parts : List Part} {xs : List RegIdx} {s t : State}

theorem SameBut.reg_eq (h : SameBut parts xs s t) {r : RegIdx} (hr : r ∉ xs) : t.reg r = s.reg r := by
  obtain ⟨hregs, _⟩ := h
  exact hregs r hr

theorem SameBut.index_eq (h : SameBut parts xs s t) (hp : .index ∉ parts) : t.i = s.i := by
  obtain ⟨_, hpart, _⟩ := h
  exact hpart hp

theorem SameBut.memory_eq (h : SameBut parts xs s t) (hp : .memory ∉ parts) : ∀ a, memRead t a = memRead s a := by
  obtain ⟨_, _, hpart, _⟩ := h
  exact hpart hp

theorem SameBut.stack_eq (h : SameBut parts xs s t) (hp : .stack ∉ parts) : t.stk = s.stk ∧ t.sp = s.sp := by
  obtain ⟨_, _, _, hpart, _⟩ := h
  exact hpart hp

theorem SameBut.delayTimer_eq (h : SameBut parts xs s t) (hp : .delayTimer ∉ parts) : t.dt = s.dt := by
  obtain ⟨_, _, _, _, hpart, _⟩ := h
  exact hpart hp

theorem SameBut.soundTimer_eq (h : SameBut parts xs s t) (hp : .soundTimer ∉ parts) : t.st = s.st := by
  obtain ⟨_, _, _, _, _, hpart, _⟩ := h
  exact hpart hp

theorem SameBut.display_eq (h : SameBut parts xs s t) (hp : .display ∉ parts) : t.fb = s.fb := by
  obtain ⟨_, _, _, _, _, _, hpart, _⟩ := h
  exact hpart hp

theorem SameBut.keys_eq (h : SameBut parts xs s t) (hp : .keys ∉ parts) : t.key = s.key := by
  obtain ⟨_, _, _, _, _, _, _, hpart, _⟩ := h
  exact hpart hp

theorem SameBut.keyWait_eq (h : SameBut parts xs s t) (hp : .keyWait ∉ parts) : t.run = s.run ∧ t.wreg = s.wreg ∧ t.kpend = s.kpend := by
  obtain ⟨_, _, _, _, _, _, _, _, hpart, _⟩ := h
  exact hpart hp

theorem SameBut.draws_eq (h : SameBut parts xs s t) (hp : .draws ∉ parts) : t.draws = s.draws := by
  obtain ⟨_, _, _, _, _, _, _, _, _, hpart, _⟩ := h
  exact hpart hp

theorem SameBut.config_eq (h : SameBut parts xs s t) : t.config = s.config := by
  obtain ⟨_, _, _, _, _, _, _, _, _, _, hconfig⟩ := h
  exact hconfig

end

/-! ### The frame -/

theorem eq_of_exec_eq_next {i : Instr} {s t u : State} (hu : exec i s = .next u) (h : exec i s = .next t) : t = u :=
  Host.Outcome.next.inj (h.symm.trans hu)

/-- The frame of the write that an instruction ends with, before it advances, is the instruction's. -/
theorem SameBut.of_exec_eq_advance {parts : List Part} {xs : List RegIdx} {i : Instr} {s t u : State}
    (hframe : SameBut parts xs s u) (hu : exec i s = .next u.advance) (h : exec i s = .next t) :
    SameBut parts xs s t := by
  obtain rfl := eq_of_exec_eq_next hu h
  exact sameBut_advance hframe

theorem sameBut_setMem (s : State) (m : Memory) : SameBut [.memory] [] s (s.setMem m) := by
  simp [SameBut]

theorem sameBut_setStack (s : State) (k : Vector Word 16) (n : Fin 17) : SameBut [.stack] [] s (s.setStack k n) := by
  simp [SameBut]

theorem sameBut_enterWait (s : State) (x : RegIdx) : SameBut [.keyWait] [] s (s.enterWait x) := by
  simp [SameBut]

theorem sameBut_setReg_bumpDraws (s : State) (x : RegIdx) (b : Byte) :
    SameBut [.draws] [x] s (s.setReg x b).bumpDraws := by
  simp +contextual [SameBut]

theorem sameBut_setFb_setReg (s : State) (d : Display) (b : Byte) :
    SameBut [.display] [15] s ((s.setFb d).setReg 15 b) := by
  simp +contextual [SameBut]

theorem sameBut_setIndex_setReg (s : State) (a : Word) (b : Byte) :
    SameBut [.index] [15] s ((s.setIndex a).setReg 15 b) := by
  simp +contextual [SameBut]

/-- An instruction changes nothing but the parts and registers it writes (00_scope.md R13). -/
theorem sameBut_of_exec {i : Instr} {s t : State} (h : exec i s = .next t) :
    SameBut i.parts (i.writtenRegs s.config) s t := by
  cases i with
  | call nnn =>
    obtain ⟨_, rfl⟩ := exec_call_eq_next_iff.mp h
    exact sameBut_setStack s _ _
  | ret =>
    obtain ⟨_, rfl⟩ := exec_ret_eq_next_iff.mp h
    exact sameBut_setStack s _ _
  | jp | jpV0Nnn | seVxKk | sneVxKk | seVxVy | sneVxVy | skpVx | sknpVx =>
    obtain rfl := eq_of_exec_eq_next rfl h
    exact sameBut_setPc s _
  | ldVxK x =>
    obtain rfl := eq_of_exec_eq_next rfl h
    exact sameBut_enterWait s x
  | addIVx x =>
    rw [Instr.writtenRegs_addIVx]
    cases hquirk : s.config.quirkFx1eVf with
    | false => exact (sameBut_setIndex s _).of_exec_eq_advance (exec_addIVx_of_quirk_off x hquirk) h
    | true => exact (sameBut_setIndex_setReg s _ _).of_exec_eq_advance (exec_addIVx_of_quirk_on x hquirk) h
  | ldVxKk x | addVxKk x | ldVxVy x | orVxVy x | andVxVy x | xorVxVy x | ldVxDt x =>
    exact (sameBut_setReg s x _).of_exec_eq_advance rfl h
  | addVxVy x | subVxVy x | shrVxVy x | subnVxVy x | shlVxVy x =>
    exact (sameBut_writeFlagged s x _ _).of_exec_eq_advance rfl h
  | rndVxKk x => exact (sameBut_setReg_bumpDraws s x _).of_exec_eq_advance rfl h
  | cls => exact (sameBut_setFb s _).of_exec_eq_advance rfl h
  | drwVxVyN => exact (sameBut_setFb_setReg s _ _).of_exec_eq_advance rfl h
  | ldINnn | ldFVx => exact (sameBut_setIndex s _).of_exec_eq_advance rfl h
  | ldBVx | ldMiVx => exact (sameBut_setMem s _).of_exec_eq_advance rfl h
  | ldDtVx => exact (sameBut_setDt s _).of_exec_eq_advance rfl h
  | ldStVx => exact (sameBut_setSt s _).of_exec_eq_advance rfl h
  | ldVxMi x => exact (sameBut_setRegs_loadRegs s x).of_exec_eq_advance rfl h

theorem config_of_exec {i : Instr} {s t : State} (h : exec i s = .next t) : t.config = s.config :=
  (sameBut_of_exec h).config_eq

/-- RUN, WREG and KPEND stay, but under Fx0A, which enters the wait (10_state.md, sections 6 and 7). -/
theorem keyWait_of_exec {i : Instr} {s t : State} (h : exec i s = .next t) :
    (t.run = s.run ∧ t.wreg = s.wreg ∧ t.kpend = s.kpend) ∨ ∃ x, i = .ldVxK x ∧ t = s.enterWait x := by
  by_cases hwait : ∃ x, i = .ldVxK x
  · obtain ⟨x, rfl⟩ := hwait
    exact .inr ⟨x, rfl, eq_of_exec_eq_next rfl h⟩
  · exact .inl ((sameBut_of_exec h).keyWait_eq (mt Instr.keyWait_mem_parts_iff.mp hwait))

/-! ### Memory -/

/-- Memory after an instruction is the memory before it, but after Fx33 and Fx55 (20_memory.md, section 3). -/
theorem mem_of_exec {i : Instr} {s t : State} (h : exec i s = .next t) :
    t.mem = s.mem ∨ (∃ x, i = .ldBVx x ∧ t.mem = storeDigits s (s.reg x)) ∨
      ∃ x, i = .ldMiVx x ∧ t.mem = storeRegs s (x.val + 1) := by
  cases i with
  | call nnn =>
    obtain ⟨_, rfl⟩ := exec_call_eq_next_iff.mp h
    exact .inl rfl
  | ret =>
    obtain ⟨_, rfl⟩ := exec_ret_eq_next_iff.mp h
    exact .inl rfl
  | addIVx x =>
    obtain rfl := eq_of_exec_eq_next rfl h
    left
    split <;> rfl
  | ldBVx x =>
    obtain rfl := eq_of_exec_eq_next rfl h
    exact .inr (.inl ⟨x, rfl, rfl⟩)
  | ldMiVx x =>
    obtain rfl := eq_of_exec_eq_next rfl h
    exact .inr (.inr ⟨x, rfl, rfl⟩)
  | _ =>
    obtain rfl := eq_of_exec_eq_next rfl h
    exact .inl rfl

/-! ### PC -/

/-- An instruction that is no control transfer ends in `advance` (10_state.md R28). -/
theorem exec_of_sequential {i : Instr} (s : State) (h : i.sequential = true) :
    ∃ u : State, exec i s = .next u.advance ∧ u.pc = s.pc := by
  cases i with
  | jp | call | ret | jpV0Nnn | seVxKk | sneVxKk | seVxVy | sneVxVy | skpVx | sknpVx | ldVxK => cases h
  | addIVx x =>
    refine ⟨_, rfl, ?_⟩
    split <;> rfl
  | _ => exact ⟨_, rfl, rfl⟩

/-! ### The flag -/

/-- An instruction that writes the flag writes it last, as a flag byte (10_state.md R24, R25). -/
theorem exec_of_writesFlag {i : Instr} {s : State} (h : i.writesFlag s.config = true) :
    ∃ (u : State) (b : Bool), exec i s = .next (u.setReg 15 (flagByte b)).advance := by
  cases i with
  | addVxVy | subVxVy | shrVxVy | subnVxVy | shlVxVy | drwVxVyN => exact ⟨_, _, rfl⟩
  | addIVx x => exact ⟨_, _, exec_addIVx_of_quirk_on x h⟩
  | _ => cases h

/-! ### Independence of ST (45_timer_keypad.md R152) -/

/-- A change of the state carried through an outcome; an error stays the same error. -/
def mapNext (f : State → State) : StepResult → StepResult
  | .next t => .next (f t)
  | .fault e => .fault e
  | .refused r => .refused r

/-- An instruction other than Fx18 commutes with a write of ST. -/
theorem exec_setSt {i : Instr} (s : State) (b : Byte) (h : ∀ x, i ≠ .ldStVx x) :
    exec i (s.setSt b) = mapNext (State.setSt · b) (exec i s) := by
  cases i with
  | ldStVx x => exact absurd rfl (h x)
  | call nnn =>
    rw [exec_call, exec_call]
    by_cases hsp : s.sp.val < 16
    · rw [execCall_free nnn s hsp, execCall_free nnn (s.setSt b) hsp]; rfl
    · rw [execCall_full nnn s hsp, execCall_full nnn (s.setSt b) hsp]; rfl
  | ret =>
    rw [exec_ret, exec_ret]
    by_cases hsp : 0 < s.sp.val
    · rw [execRet_live s hsp, execRet_live (s.setSt b) hsp]; rfl
    · rw [execRet_empty s hsp, execRet_empty (s.setSt b) hsp]; rfl
  | drwVxVyN x y n =>
    simp only [exec, execDrwVxVyN, blitSprite_setSt]
    rfl
  | ldMiVx x =>
    simp only [exec, execLdMiVx, storeRegs_setSt]
    rfl
  | ldVxMi x =>
    rw [exec_ldVxMi, exec_ldVxMi, loadRegs_setSt]
    rfl
  | addIVx x =>
    cases hquirk : s.config.quirkFx1eVf with
    | false => rw [exec_addIVx_of_quirk_off x hquirk, exec_addIVx_of_quirk_off x (s := s.setSt b) hquirk]; rfl
    | true => rw [exec_addIVx_of_quirk_on x hquirk, exec_addIVx_of_quirk_on x (s := s.setSt b) hquirk]; rfl
  | _ => rfl

end Sys2Proof.Machine

namespace Sys2Proof.Machine

/-! ### The parameters under the host operations (00_scope.md, section 4) -/

theorem pollKey_config (s : State) : (pollKey s).config = s.config := by
  cases h : s.kpend with
  | none => rw [pollKey_none s h]
  | some k => rw [pollKey_some s k h]; rfl

theorem config_of_step {s t : State} (h : step s = .next t) : t.config = s.config := by
  rcases step_next_cases s t h with ⟨_, rfl⟩ | ⟨_, i, _, hexec⟩
  · exact pollKey_config s
  · exact config_of_exec hexec

theorem perform_config (op : HostOp) (s : State) : (perform op s).1.config = s.config := by
  cases op with
  | reset | tick | keyDown | keyUp => rfl
  | load image =>
    by_cases hfits : image.length ≤ 0xE00
    · rw [perform, hostLoad_fits image s hfits]; rfl
    · rw [perform, hostLoad_tooLarge image s hfits]; rfl
  | step =>
    rcases perform_step_state s with ⟨t, ht, hstate⟩ | hstate
    · rw [hstate, config_of_step ht]
    · rw [hstate]

end Sys2Proof.Machine

namespace Sys2Proof

open Sys2Proof.Machine

/-- Settles O11: only CALL and RET can fail, and each fails exactly when the stack has no slot or no entry for it. -/
theorem everyInstructionCompletesButForTheStack : Obligations.EveryInstructionCompletesButForTheStack := by
  intro i s
  refine ⟨fun ⟨hcall, hret⟩ => ?_, fun hcall hsp => exec_eq_fault_iff.mpr (.inl ⟨rfl, hcall, hsp⟩),
    fun hret hsp => exec_eq_fault_iff.mpr (.inr ⟨rfl, hret, hsp⟩)⟩
  cases h : exec i s with
  | next t => exact ⟨t, rfl⟩
  | refused r => exact absurd h (exec_ne_refused i s r)
  | fault f =>
    rcases exec_eq_fault_iff.mp h with ⟨_, hi, hsp⟩ | ⟨_, hi, hsp⟩
    · exact absurd ⟨hi, hsp⟩ hcall
    · exact absurd ⟨hi, hsp⟩ hret

/-- Settles O29: the frame gives the registers that stay; the flag is written last, as a flag byte. -/
theorem onlyDestinationsAndFlagChange : Obligations.OnlyDestinationsAndFlagChange := by
  intro i s t h
  refine ⟨fun r hdest hflag => (sameBut_of_exec h).reg_eq ?_, fun hflag => ?_⟩
  · unfold Instr.writtenRegs
    split <;> simp_all
  · obtain ⟨u, b, hu⟩ := exec_of_writesFlag hflag
    obtain rfl := eq_of_exec_eq_next hu h
    rw [State.advance_reg, State.setReg_reg, if_pos rfl, toNat_flagByte]
    split <;> decide

/-- Settles O56: each clause is one clause of the frame, for an instruction that does not write the part; no host
operation writes the parameters. -/
theorem onlyNamedInstructionsTouchEachPart : Obligations.OnlyNamedInstructionsTouchEachPart := by
  refine ⟨fun i s t h => ?_, perform_config⟩
  have hframe := sameBut_of_exec h
  refine ⟨fun hi => hframe.delayTimer_eq (mt Instr.delayTimer_mem_parts_iff.mp (not_exists.mpr hi)),
    fun hi => hframe.soundTimer_eq (mt Instr.soundTimer_mem_parts_iff.mp (not_exists.mpr hi)),
    fun hcls hdrw => hframe.display_eq fun hmem => ?display,
    fun hret hcall => hframe.stack_eq fun hmem => ?stack,
    fun hld hadd hfont => hframe.index_eq fun hmem => ?index,
    fun hdigits hregs => ?memory,
    fun hi => hframe.keyWait_eq (mt Instr.keyWait_mem_parts_iff.mp (not_exists.mpr hi)),
    hframe.keys_eq i.keys_notMem_parts⟩
  case display =>
    obtain hi | ⟨x, y, n, hi⟩ := Instr.display_mem_parts_iff.mp hmem
    · exact hcls hi
    · exact hdrw x y n hi
  case stack =>
    obtain hi | ⟨nnn, hi⟩ := Instr.stack_mem_parts_iff.mp hmem
    · exact hret hi
    · exact hcall nnn hi
  case index =>
    obtain ⟨nnn, hi⟩ | ⟨x, hi⟩ | ⟨x, hi⟩ := Instr.index_mem_parts_iff.mp hmem
    · exact hld nnn hi
    · exact hadd x hi
    · exact hfont x hi
  case memory =>
    obtain hmem | ⟨x, hi, _⟩ | ⟨x, hi, _⟩ := mem_of_exec h
    · exact hmem
    · exact absurd hi (hdigits x)
    · exact absurd hi (hregs x)

/-- Settles O57: an instruction other than Fx18 commutes with a write of ST, and Fx18 overwrites it. -/
theorem noInstructionReadsTheSoundTimer : Obligations.NoInstructionReadsTheSoundTimer := by
  intro i s b
  refine ⟨fun t h hi => by rw [exec_setSt s b hi, h]; rfl, fun f h => ?_, fun x => rfl⟩
  have hcause := exec_eq_fault_iff.mp h
  exact exec_eq_fault_iff.mpr hcause

end Sys2Proof
end

section
/-! The results of `step` and of the host operations (40_step_dispatch.md; 60_exceptions.md, section 1): the polls of the
key wait, the three errors of `step`, and the runs that stay where they are. -/

namespace Sys2Proof

/-- A word is illegal exactly when the decoder rejects it (30_encoding.md R75, R78). -/
theorem legalWord_eq_false_iff {w : Word} : legalWord w = false ↔ ∃ e, decodeWord w = .error e := by
  constructor
  · intro h
    exact decodeWord_error_of_no_row (by simpa [legalWord] using h)
  · rintro ⟨e, he⟩
    rw [Bool.eq_false_iff]
    intro hlegal
    obtain ⟨r, hr, hadmits⟩ := List.any_eq_true.mp hlegal
    obtain ⟨i, hi, _⟩ := decodesTo_of_admits hr hadmits
    rw [hi] at he
    cases he

theorem exists_decodeWord_call_iff {w : Word} :
    (∃ nnn, decodeWord w = .ok (.call nnn)) ↔ w.toNat / 0x1000 = 2 := by
  rw [show w.toNat / 0x1000 = 2 ↔ fieldClass w = 0x2#4 from (fieldClass_eq_iff w 0x2#4).symm]
  constructor
  · rintro ⟨nnn, h⟩
    rw [decodeWord_eq_ok_iff.mp h]
    exact fieldClass_packNnn 0x2 nnn
  · intro hc
    exact ⟨fieldNnn w, decodeWord_eq_ok_iff.mpr (packNnn_of_class hc).symm⟩

theorem decodeWord_eq_ret_iff {w : Word} : decodeWord w = .ok .ret ↔ w.toNat = 0x00EE := by
  rw [decodeWord_eq_ok_iff, ← BitVec.toNat_inj]
  rfl

end Sys2Proof

namespace Sys2Proof.Machine

/-! ### The results of `step` -/

/-- While AWAITING_KEY a `step` is a poll (40_step_dispatch.md R91). -/
theorem step_of_awaitingKey {s : State} (h : s.run = .awaitingKey) : step s = .next (pollKey s) := by
  simp only [step, h]

/-- A `step` fails exactly on a word the decoder rejects or with its handler (40_step_dispatch.md R92). -/
theorem step_eq_fault_iff {s : State} {f : Fault} :
    step s = .fault f ↔ s.run = .running ∧
      ((f = .decodeError ∧ ∃ e, decodeWord (fetchWord s) = .error e) ∨
        ∃ i, decodeWord (fetchWord s) = .ok i ∧ exec i s = .fault f) := by
  cases hrun : s.run with
  | awaitingKey => simp [step_of_awaitingKey hrun]
  | running =>
    cases hdecode : decodeWord (fetchWord s) with
    | error e => simp [step_of_decodeWord_error hrun hdecode, eq_comm]
    | ok i => simp [step_of_decodeWord_ok hrun hdecode]

theorem step_ne_refused (s : State) (r : Refusal) : step s ≠ .refused r := by
  cases hrun : s.run with
  | awaitingKey => simp [step_of_awaitingKey hrun]
  | running =>
    cases hdecode : decodeWord (fetchWord s) with
    | error e => simp [step_of_decodeWord_error hrun hdecode]
    | ok i => simp [step_of_decodeWord_ok hrun hdecode, exec_ne_refused]

/-- `step` answers a next state or one of its three errors (60_exceptions.md, section 1). -/
theorem step_next_or_fault (s : State) :
    (∃ t, step s = .next t) ∨ step s = .fault .decodeError ∨ step s = .fault .stackOverflow ∨
      step s = .fault .stackUnderflow := by
  cases h : step s with
  | next t => exact .inl ⟨t, rfl⟩
  | refused r => exact absurd h (step_ne_refused s r)
  | fault f =>
    obtain ⟨_, ⟨rfl, _⟩ | ⟨i, _, hexec⟩⟩ := step_eq_fault_iff.mp h
    · exact .inr (.inl rfl)
    · obtain ⟨rfl, _⟩ | ⟨rfl, _⟩ := exec_eq_fault_iff.mp hexec
      · exact .inr (.inr (.inl rfl))
      · exact .inr (.inr (.inr rfl))

/-- A poll that finds a press edge writes V[WREG] and ends the wait (40_step_dispatch.md R91). -/
theorem sameBut_pollKey (s : State) : SameBut [.keyWait] [s.wreg] s (pollKey s) := by
  cases h : s.kpend with
  | none => simp [pollKey_none s h, SameBut]
  | some k => simp +contextual [pollKey_some s k h, SameBut]

/-- The register of the wait takes the number of the key (40_step_dispatch.md R91). -/
theorem toNat_reg_pollKey {s : State} {k : KeyIdx} (h : s.kpend = some k) : ((pollKey s).reg s.wreg).toNat = k.val := by
  rw [pollKey_some s k h, State.setRun_reg, State.advance_reg, State.setReg_reg, if_pos rfl, BitVec.toNat_ofNat]
  omega

theorem perform_load_of_fits {image : List Byte} (s : State) (h : image.length ≤ 0xE00) :
    perform (.load image) s =
      ((hostReset s).setMem (Memory.pokeList s.config.font s.mem 0x200 image), .ok) := by
  rw [perform, hostLoad_fits image s h, afterOutcome]

theorem perform_load_of_tooLarge {image : List Byte} (s : State) (h : 0xE00 < image.length) :
    perform (.load image) s = (s, .error .programTooLarge) := by
  rw [perform, hostLoad_tooLarge image s (by omega), afterOutcome]

end Sys2Proof.Machine

namespace Sys2Proof

open Sys2Proof.Machine

/-- Settles O8: the poll reads KPEND, and every element it writes is named. -/
theorem awaitingStepPollsForTheKey : Obligations.AwaitingStepPollsForTheKey := by
  intro s hrun
  refine ⟨fun hnone => by rw [step_of_awaitingKey hrun, pollKey_none s hnone], fun k hk => ?_⟩
  refine ⟨pollKey s, step_of_awaitingKey hrun, toNat_reg_pollKey hk, ?_, ?_, ?_, ?_, sameBut_pollKey s⟩
  all_goals rw [pollKey_some s k hk]; rfl

/-- Settles O9: the two errors of the handlers are those of CALL and RET, whose words are told by their class and by
their 16 bits. -/
theorem stepFailsInExactlyThreeCases : Obligations.StepFailsInExactlyThreeCases := by
  intro s f
  rw [step_eq_fault_iff, legalWord_eq_false_iff, ← exists_decodeWord_call_iff, ← decodeWord_eq_ret_iff]
  refine and_congr_right fun _ => or_congr_right ?_
  simp only [exec_eq_fault_iff]
  constructor
  · rintro ⟨i, hdecode, ⟨hf, ⟨nnn, rfl⟩, hsp⟩ | ⟨hf, rfl, hsp⟩⟩
    · exact .inl ⟨hf, ⟨nnn, hdecode⟩, hsp⟩
    · exact .inr ⟨hf, hdecode, hsp⟩
  · rintro (⟨hf, ⟨nnn, hdecode⟩, hsp⟩ | ⟨hf, hdecode, hsp⟩)
    · exact ⟨.call nnn, hdecode, .inl ⟨hf, ⟨nnn, rfl⟩, hsp⟩⟩
    · exact ⟨.ret, hdecode, .inr ⟨hf, rfl, hsp⟩⟩

/-- Settles O10: neither `load` nor the handlers that `step` runs answer a refusal, and no other operation can. -/
theorem noOperationIsRefused : Obligations.NoOperationIsRefused := by
  intro op s r
  cases op with
  | reset | tick | keyDown | keyUp => nofun
  | load image =>
    by_cases hfits : image.length ≤ 0xE00
    · rw [perform_load_of_fits s hfits]; nofun
    · rw [perform_load_of_tooLarge s (by omega)]; nofun
  | step =>
    rw [perform]
    cases h : step s with
    | next t => nofun
    | fault f => nofun
    | refused r => exact absurd h (step_ne_refused s r)

end Sys2Proof
end

section
/-! Memory under the instructions and `load`, and the invariant that every host operation keeps: canonical memory, an
intact font region, no pending edge while RUNNING (20_memory.md; 10_state.md R38). -/

namespace Sys2Proof.Machine

/-! ### Stores leave the font region alone (20_memory.md R54) -/

theorem inFontRegion_eq_true_iff {a : Nat} : inFontRegion a = true ↔ a % 0x1000 ≤ 0x04F := decide_eq_true_iff

/-- A store is seen at its own address modulo 0x1000, above the font region. -/
theorem memRead_setMem_store (s : State) (a a' : Nat) (b : Byte) :
    memRead (s.setMem (Memory.store s.config.font s.mem a b)) a' =
      if a % 0x1000 = a' % 0x1000 ∧ 0x04F < a' % 0x1000 then b else memRead s a' := by
  have hregion : inFontRegion a' = false ↔ 0x04F < a' % 0x1000 := by
    rw [← Bool.not_eq_true, inFontRegion_eq_true_iff, not_le]
  simp only [State.setMem_memRead, Memory.read_store, hregion]
  rfl

theorem read_storeDigits_font (s : State) (b : Byte) {a : Nat} (h : inFontRegion a = true) :
    Memory.read s.config.font (storeDigits s b) a = memRead s a := by
  simp only [storeDigits, Memory.read_store_font _ _ _ _ _ h, memRead]

/-- No instruction changes a byte of the font region. -/
theorem memRead_font_of_exec {i : Instr} {s t : State} {a : Nat} (h : exec i s = .next t)
    (ha : inFontRegion a = true) : memRead t a = memRead s a := by
  rw [memRead, config_of_exec h]
  obtain hmem | ⟨x, _, hmem⟩ | ⟨x, _, hmem⟩ := mem_of_exec h
  · rw [hmem, memRead]
  · rw [hmem, read_storeDigits_font s _ ha]
  · rw [hmem, read_storeRegs_miss s _ a (.inl ha), memRead]

/-- A byte after a `load` that fits: the image from 0x200 on, the byte before it elsewhere (70_reset_and_hazards.md R193). -/
theorem memRead_load (image : List Byte) (s : State) (hfits : image.length ≤ 0xE00) (a : Nat) :
    memRead ((hostReset s).setMem (Memory.pokeList s.config.font s.mem 0x200 image)) a =
      if h : 0x200 ≤ wrapAddr a ∧ wrapAddr a < 0x200 + image.length then image[wrapAddr a - 0x200]'(by omega)
      else memRead s a :=
  Memory.read_pokeList s.config.font image s.mem 0x200 a (by omega)

theorem memRead_font_of_load (image : List Byte) (s : State) {a : Nat} (ha : inFontRegion a = true) :
    memRead (perform (.load image) s).1 a = memRead s a := by
  by_cases hfits : image.length ≤ 0xE00
  · have hbelow : wrapAddr a ≤ 0x04F := inFontRegion_eq_true_iff.mp ha
    rw [perform_load_of_fits s hfits, memRead_load image s hfits, dif_neg (by omega)]
  · rw [perform_load_of_tooLarge s (by omega)]

/-! ### The invariant -/

theorem inFontRegion_fin (a : Fin 80) : inFontRegion a.val = true := by
  rw [inFontRegion_eq_true_iff]; omega

/-- The font stays intact when no byte of its region changes. -/
theorem FontIntact.of_memRead_eq {s t : State} (h : FontIntact s) (hconfig : t.config = s.config)
    (hread : ∀ a, inFontRegion a = true → memRead t a = memRead s a) : FontIntact t := by
  intro a
  rw [hread a (inFontRegion_fin a), h a, hconfig]

/-- An operation that leaves memory alone keeps the invariant if it leaves no edge pending in RUNNING. -/
theorem Inv.of_mem_eq {s t : State} (h : Inv s) (hmem : t.mem = s.mem) (hconfig : t.config = s.config)
    (hkpend : t.run = .running → t.kpend = none) : Inv t := by
  obtain ⟨hwf, hfont, _⟩ := h
  refine ⟨by rw [hmem, hconfig]; exact hwf, hfont.of_memRead_eq hconfig fun a _ => ?_, hkpend⟩
  rw [memRead, hmem, hconfig, memRead]

theorem memory_wf_of_exec {i : Instr} {s t : State} (h : exec i s = .next t) (hwf : Memory.wf s.config.font s.mem) :
    Memory.wf s.config.font t.mem := by
  obtain hmem | ⟨x, _, hmem⟩ | ⟨x, _, hmem⟩ := mem_of_exec h
  · rw [hmem]; exact hwf
  · rw [hmem]; exact Memory.store_wf _ _ _ _ (Memory.store_wf _ _ _ _ (Memory.store_wf _ _ _ _ hwf))
  · rw [hmem]; exact storeRegs_wf s _ hwf

/-- Every instruction keeps the invariant: only Fx0A touches KPEND, and it clears it. -/
theorem inv_of_exec {i : Instr} {s t : State} (hinv : Inv s) (h : exec i s = .next t) : Inv t := by
  obtain ⟨hwf, hfont, hkpend⟩ := hinv
  have hconfig := config_of_exec h
  refine ⟨by rw [hconfig]; exact memory_wf_of_exec h hwf,
    hfont.of_memRead_eq hconfig fun a ha => memRead_font_of_exec h ha, fun hrun => ?_⟩
  obtain ⟨hsame, _, hk⟩ | ⟨x, _, rfl⟩ := keyWait_of_exec h
  · rw [hk]; exact hkpend (hsame ▸ hrun)
  · exact State.enterWait_kpend s x

theorem inv_pollKey {s : State} (hinv : Inv s) : Inv (pollKey s) := by
  cases h : s.kpend with
  | none => rw [pollKey_none s h]; exact hinv
  | some k => rw [pollKey_some s k h]; exact hinv.of_mem_eq rfl rfl fun _ => rfl

/-- Every `step` keeps the invariant. -/
theorem inv_of_step {s t : State} (hinv : Inv s) (h : step s = .next t) : Inv t := by
  rcases step_next_cases s t h with ⟨_, rfl⟩ | ⟨_, i, _, hexec⟩
  · exact inv_pollKey hinv
  · exact inv_of_exec hinv hexec

theorem inv_resetWith (c : Config) (n : Nat) : Inv (State.resetWith c n) := by
  refine ⟨⟨List.Pairwise.nil, nofun⟩, fun a => ?_, fun _ => rfl⟩
  have hwrap : wrapAddr a.val = a.val := Nat.mod_eq_of_lt (by omega)
  rw [resetWith_memRead, hwrap, Memory.unlisted, dif_pos a.isLt]
  rfl

/-- A `load` that fits writes canonical memory above the font region and resets KPEND. -/
theorem inv_load {image : List Byte} {s : State} (hinv : Inv s) (hfits : image.length ≤ 0xE00) :
    Inv ((hostReset s).setMem (Memory.pokeList s.config.font s.mem 0x200 image)) := by
  obtain ⟨hwf, hfont, _⟩ := hinv
  refine ⟨Memory.pokeList_wf _ image s.mem 0x200 hwf, hfont.of_memRead_eq rfl fun a ha => ?_, fun _ => rfl⟩
  have hbelow : wrapAddr a ≤ 0x04F := inFontRegion_eq_true_iff.mp ha
  rw [memRead_load image s hfits, dif_neg (by omega)]

theorem inv_hostKeyDown {s : State} (hinv : Inv s) (k : KeyIdx) : Inv (hostKeyDown k s) := by
  refine hinv.of_mem_eq rfl rfl fun hrun => ?_
  have hrun : s.run = .running := hrun
  have ⟨_, _, hkpend⟩ := hinv
  simp [hostKeyDown, edgeTaken, hrun, hkpend hrun]

/-- Every host operation keeps the invariant, whatever its result. -/
theorem inv_perform (op : HostOp) {s : State} (hinv : Inv s) : Inv (perform op s).1 := by
  have ⟨_, _, hkpend⟩ := hinv
  cases op with
  | reset => exact inv_resetWith s.config s.draws
  | tick => exact hinv.of_mem_eq rfl rfl hkpend
  | keyDown k => exact inv_hostKeyDown hinv k
  | keyUp k => exact hinv.of_mem_eq rfl rfl hkpend
  | load image =>
    by_cases hfits : image.length ≤ 0xE00
    · rw [perform_load_of_fits s hfits]; exact inv_load hinv hfits
    · rw [perform_load_of_tooLarge s (by omega)]; exact hinv
  | step =>
    rcases perform_step_state s with ⟨t, ht, hstate⟩ | hstate
    · rw [hstate]; exact inv_of_step hinv ht
    · rw [hstate]; exact hinv

theorem inv_of_reachable {s : State} (h : Reachable s) : Inv s := by
  induction h with
  | start c n => exact inv_resetWith c n
  | after s op _ ih => exact inv_perform op ih

end Sys2Proof.Machine

namespace Sys2Proof

open Sys2Proof.Machine

/-- Settles O52: a poll of the key wait keeps the invariant, and so does every instruction. -/
theorem stepKeepsTheMachineWellFormed : Obligations.StepKeepsTheMachineWellFormed :=
  fun _ _ => inv_of_step

/-- Settles O53: an error leaves the state as it was, and every other result is a state with the invariant. -/
theorem hostOperationsKeepTheMachineWellFormed : Obligations.HostOperationsKeepTheMachineWellFormed :=
  fun op _ => inv_perform op

/-- Settles O54: memory lists nothing after reset, so the font region reads as FONT. -/
theorem resetIsWellFormed : Obligations.ResetIsWellFormed :=
  ⟨inv_resetWith Config.default 0, inv_resetWith⟩

/-- Settles O55: the invariant is carried along every sequence of host operations, and by the next `step`. -/
theorem everyReachableStateIsWellFormed : Obligations.EveryReachableStateIsWellFormed := by
  intro s h
  have hinv := inv_of_reachable h
  exact ⟨hinv, (step_next_or_fault s).imp_left fun ⟨t, ht⟩ => ⟨t, ht, inv_of_step hinv ht⟩⟩

/-- Settles O37: a store is read at its wrapped address, unless the font region dropped it. -/
theorem storedByteReadsBackOutsideTheFont : Obligations.StoredByteReadsBackOutsideTheFont :=
  memRead_setMem_store

/-- Settles O38: instructions write memory by stores, which the font region drops; `load` writes from 0x200 on. -/
theorem fontRegionIsNeverOverwritten : Obligations.FontRegionIsNeverOverwritten :=
  ⟨fun _ _ _ _ h ha => memRead_font_of_exec h (inFontRegion_eq_true_iff.mpr ha),
    fun image s _ ha => memRead_font_of_load image s (inFontRegion_eq_true_iff.mpr ha)⟩

end Sys2Proof
end

section
/-! CALL, RET and Bnnn of 41_flow_stack.md, PC under every instruction (10_state.md, section 4), and the key skips and
the entry of the key wait of 45_timer_keypad.md. -/

namespace Sys2Proof.Machine

theorem SameBut.setPc {parts : List Part} {xs : List RegIdx} {s t : State} (h : SameBut parts xs s t) (a : Word) :
    SameBut parts xs s (t.setPc a) := h

theorem exec_jpV0Nnn (nnn : BitVec 12) (s : State) :
    exec (.jpV0Nnn nnn) s = .next (s.setPc (immAddr nnn + regWord (s.reg 0))) := rfl

theorem exec_skpVx (x : RegIdx) (s : State) :
    exec (.skpVx x) s = .next (s.skipIf (s.pressed (lowNibble (s.reg x)))) := rfl

theorem exec_sknpVx (x : RegIdx) (s : State) :
    exec (.sknpVx x) s = .next (s.skipIf (!s.pressed (lowNibble (s.reg x)))) := rfl

theorem exec_ldVxK (x : RegIdx) (s : State) : exec (.ldVxK x) s = .next (s.enterWait x) := rfl

/-- The sum of Bnnn fits in 16 bits (41_flow_stack.md R107). -/
theorem toNat_immAddr_add_regWord (nnn : BitVec 12) (b : Byte) :
    (immAddr nnn + regWord b).toNat = nnn.toNat + b.toNat := by
  rw [BitVec.toNat_add, toNat_immAddr, toNat_regWord]
  omega

theorem eq_lowNibble_of_val_eq {k : KeyIdx} {b : Byte} (h : k.val = b.toNat % 16) : lowNibble b = k :=
  Fin.ext (by rw [val_lowNibble, h])

/-- PC after a skip, modulo 0x10000 (10_state.md R29). -/
theorem toNat_pc_skipIf (s : State) (b : Bool) :
    (s.skipIf b).pc.toNat = (s.pc.toNat + if b = true then 4 else 2) % 0x10000 := by
  rw [State.skipIf_pc]
  cases b <;> exact BitVec.toNat_add _ _

/-- PC after a skip whose condition is said as a proposition. -/
theorem toNat_pc_of_exec_eq_skipIf {i : Instr} {s t : State} {b : Bool} (hexec : exec i s = .next (s.skipIf b))
    (h : exec i s = .next t) {p : Prop} [Decidable p] (hp : b = true ↔ p) :
    t.pc.toNat = (s.pc.toNat + if p then 4 else 2) % 0x10000 := by
  obtain rfl := eq_of_exec_eq_next hexec h
  rw [toNat_pc_skipIf]
  simp only [hp]

/-- The same with the condition on which the skip is not taken. -/
theorem toNat_pc_of_exec_eq_skipIf_not {i : Instr} {s t : State} {b : Bool} (hexec : exec i s = .next (s.skipIf b))
    (h : exec i s = .next t) {p : Prop} [Decidable p] (hp : b = true ↔ ¬ p) :
    t.pc.toNat = (s.pc.toNat + if p then 2 else 4) % 0x10000 := by
  rw [toNat_pc_of_exec_eq_skipIf hexec h hp, ite_not]

end Sys2Proof.Machine

namespace Sys2Proof

open Sys2Proof.Machine

/-- Settles O13: the free slot takes PC before it is overwritten. -/
theorem callPushesItsOwnAddress : Obligations.CallPushesItsOwnAddress := by
  intro nnn s
  refine ⟨toNat_packNnn 0x2 nnn, fun hsp => ?_⟩
  refine ⟨_, exec_call_eq_next_iff.mpr ⟨hsp, rfl⟩, toNat_immAddr nnn, rfl, fun j => ?_, (sameBut_setStack s _ _).setPc _⟩
  rw [State.setPc_stk, State.setStack_stk, Vector.getElem_set]
  simp only [eq_comm]

/-- Settles O15: RET with a live entry reads the top slot and writes SP and PC only. -/
theorem returnPopsAndAddsTwo : Obligations.ReturnPopsAndAddsTwo := by
  intro s
  refine ⟨rfl, fun hsp => ?_, fun hsp => exec_eq_fault_iff.mpr (.inr ⟨rfl, rfl, hsp⟩)⟩
  refine ⟨_, exec_ret_eq_next_iff.mpr ⟨hsp, rfl⟩, Nat.sub_add_cancel hsp, rfl, fun j hj => ?_,
    (sameBut_setStack s _ _).setPc _⟩
  have htop : s.sp.val - 1 = j.val := by omega
  simp only [State.setPc_pc, htop]
  exact BitVec.toNat_add _ _

/-- Settles O17: the top slot still holds the address that CALL pushed, and SP is one above that slot. -/
theorem callThenReturnComesBack : Obligations.CallThenReturnComesBack := by
  intro nnn s t u hcall hsp htop
  obtain ⟨hfree, rfl⟩ := exec_call_eq_next_iff.mp hcall
  have hsp : u.sp.val = s.sp.val + 1 := congrArg Fin.val hsp
  have htop : u.stk[s.sp.val] = s.pc := by
    rw [htop ⟨s.sp.val, hfree⟩ rfl, State.setPc_stk, State.setStack_stk, Vector.getElem_set_self]
  have hslot : u.sp.val - 1 = s.sp.val := by omega
  refine ⟨_, exec_ret_eq_next_iff.mpr ⟨by omega, rfl⟩, ?_, Fin.ext hslot⟩
  simp only [State.setPc_pc, hslot, htop]
  exact BitVec.toNat_add _ _

/-- Settles O20: the handler writes PC alone, and the sum needs no wrap. -/
theorem offsetJumpAddsRegisterZero : Obligations.OffsetJumpAddsRegisterZero := by
  intro nnn s
  exact ⟨toNat_packNnn 0xB nnn, _, exec_jpV0Nnn nnn s, toNat_immAddr_add_regWord nnn _, sameBut_setPc s _⟩

/-- Settles O21: a sequential instruction ends in `advance`, a skip in `skipIf` of its condition. -/
theorem programCounterWrapsAtSixteenBits : Obligations.ProgramCounterWrapsAtSixteenBits := by
  intro i s t h
  refine ⟨fun hseq => ?sequential, ?seVxKk, ?sneVxKk, ?seVxVy, ?sneVxVy, fun x k hk => ⟨?skpVx, ?sknpVx⟩⟩
  case sequential =>
    obtain ⟨u, hu, hpc⟩ := exec_of_sequential s hseq
    obtain rfl := eq_of_exec_eq_next hu h
    rw [State.advance_pc, hpc]
    exact BitVec.toNat_add _ _
  case seVxKk =>
    rintro x kk rfl
    exact toNat_pc_of_exec_eq_skipIf (exec_seVxKk x kk s) h beq_iff_eq
  case sneVxKk =>
    rintro x kk rfl
    exact toNat_pc_of_exec_eq_skipIf_not (exec_sneVxKk x kk s) h bne_iff_ne
  case seVxVy =>
    rintro x y rfl
    exact toNat_pc_of_exec_eq_skipIf (exec_seVxVy x y s) h beq_iff_eq
  case sneVxVy =>
    rintro x y rfl
    exact toNat_pc_of_exec_eq_skipIf_not (exec_sneVxVy x y s) h bne_iff_ne
  case skpVx =>
    rintro rfl
    exact toNat_pc_of_exec_eq_skipIf (exec_skpVx x s) h (by rw [eq_lowNibble_of_val_eq hk])
  case sknpVx =>
    rintro rfl
    exact toNat_pc_of_exec_eq_skipIf_not (exec_sknpVx x s) h (by simp [eq_lowNibble_of_val_eq hk])

/-- Settles O43: both handlers are skips, on the key of the low nibble and on its negation. -/
theorem keySkipsReadTheLatch : Obligations.KeySkipsReadTheLatch := by
  intro x s k hk
  refine ⟨toNat_packXkk_eq_opcode_add 0xE x 0x9E, toNat_packXkk_eq_opcode_add 0xE x 0xA1,
    ⟨_, exec_skpVx x s, sameBut_setPc s _, ?_⟩, ⟨_, exec_sknpVx x s, sameBut_setPc s _, ?_⟩⟩
  · rw [State.skipIf_pc, eq_lowNibble_of_val_eq hk]
  · rw [State.skipIf_pc, eq_lowNibble_of_val_eq hk]
    cases s.pressed k <;> rfl

/-- Settles O44: entering the wait writes RUN, WREG and KPEND alone. -/
theorem keyWaitIsEnteredInPlace : Obligations.KeyWaitIsEnteredInPlace := by
  intro x s
  exact ⟨toNat_packXkk_eq_opcode_add 0xF x 0x0A, s.enterWait x, exec_ldVxK x s, rfl, rfl, rfl, rfl,
    sameBut_enterWait s x⟩

end Sys2Proof
end

section
/-! Cxkk and the load-and-add pair of 42_alu.md, and Fx1E, Fx29, Fx33 and Fx55 of 43_index_memory.md. -/

namespace Sys2Proof.Machine

theorem exec_rndVxKk (x : RegIdx) (kk : Byte) (s : State) :
    exec (.rndVxKk x kk) s = .next ((s.setReg x (Config.randomByte s.draws &&& kk)).bumpDraws).advance := rfl

theorem exec_ldFVx (x : RegIdx) (s : State) :
    exec (.ldFVx x) s = .next (s.setIndex (fontAddr (lowNibble (s.reg x)))).advance := rfl

theorem exec_ldBVx (x : RegIdx) (s : State) :
    exec (.ldBVx x) s = .next (s.setMem (storeDigits s (s.reg x))).advance := rfl

theorem exec_ldMiVx (x : RegIdx) (s : State) :
    exec (.ldMiVx x) s = .next (s.setMem (storeRegs s (x.val + 1))).advance := rfl

theorem toNat_add_regWord (a : Word) (b : Byte) : (a + regWord b).toNat = (a.toNat + b.toNat) % 0x10000 := by
  rw [BitVec.toNat_add, toNat_regWord]

/-! ### The stores of Fx33 (43_index_memory.md R133) -/

/-- The digit that Fx33 stores at I + k. -/
def decimalDigit (b : Byte) : Nat → Byte
  | 0 => hundreds b
  | 1 => tens b
  | _ => units b

theorem toNat_decimalDigit (b : Byte) {k : Nat} (hk : k < 3) :
    (decimalDigit b k).toNat = b.toNat / 10 ^ (2 - k) % 10 := by
  have := b.isLt
  interval_cases k
  · rw [decimalDigit, toNat_hundreds]; omega
  · rw [decimalDigit, toNat_tens]; omega
  · simp [decimalDigit]

/-- A byte that Fx33 stores to. -/
theorem read_storeDigits_hit (s : State) (b : Byte) {k : Nat} (hk : k < 3)
    (hregion : inFontRegion (indexAddr s k) = false) :
    Memory.read s.config.font (storeDigits s b) (indexAddr s k) = decimalDigit b k := by
  have hdistinct : ∀ j < 3, wrapAddr (indexAddr s j) = wrapAddr (indexAddr s k) ↔ j = k := fun j hj =>
    ⟨wrapAddr_add_inj (by omega) (by omega), fun h => by rw [h]⟩
  simp only [storeDigits, Memory.read_store, hdistinct 0 (by omega), hdistinct 1 (by omega), hdistinct 2 (by omega),
    hregion, and_true]
  interval_cases k <;> rfl

/-- A byte that Fx33 does not store to. -/
theorem read_storeDigits_miss (s : State) (b : Byte) {a : Nat} (h : ∀ k < 3, wrapAddr a ≠ wrapAddr (indexAddr s k)) :
    Memory.read s.config.font (storeDigits s b) a = memRead s a := by
  have hmiss : ∀ k < 3, ¬ (wrapAddr (indexAddr s k) = wrapAddr a ∧ inFontRegion a = false) := fun k hk ⟨he, _⟩ =>
    h k hk he.symm
  simp only [storeDigits, Memory.read_store, if_neg (hmiss 0 (by omega)), if_neg (hmiss 1 (by omega)),
    if_neg (hmiss 2 (by omega)), memRead]

end Sys2Proof.Machine

namespace Sys2Proof

open Sys2Proof.Machine

/-- Settles O28: Cxkk counts one draw, and DRAWS is in the frame of every other instruction. -/
theorem randomDrawsOneByteUnderMask : Obligations.RandomDrawsOneByteUnderMask := by
  refine ⟨fun x kk s => ⟨toNat_packXkk 0xC x kk, _, exec_rndVxKk x kk s, ?_, ?_, rfl, pcPlus_two_advance rfl,
    sameBut_advance (sameBut_setReg_bumpDraws s x _)⟩, fun i s t h hi => ?_⟩
  · simp
  · intro k hk
    simp [hk]
  · refine (sameBut_of_exec h).draws_eq fun hmem => ?_
    obtain ⟨x, kk, rfl⟩ := Instr.draws_mem_parts_iff.mp hmem
    exact hi x kk rfl

/-- Settles O30: the sum reads the byte just loaded, and both instructions write V[x] alone and advance. -/
theorem loadThenAddGivesTheSum : Obligations.LoadThenAddGivesTheSum := by
  intro x a b s t h
  obtain rfl := eq_of_exec_eq_next (exec_ldVxKk x a s) h
  refine ⟨_, exec_addVxKk x b _, ?_, ?_, ?_⟩
  · simp
  · simp
  · simp +contextual [SameBut]

/-- Settles O32: the quirk decides whether V[15] is written after I. -/
theorem indexAddFollowsTheQuirk : Obligations.IndexAddFollowsTheQuirk := by
  intro x s
  refine ⟨toNat_packXkk_eq_opcode_add 0xF x 0x1E, ?_⟩
  cases hquirk : s.config.quirkFx1eVf with
  | false =>
    exact ⟨_, exec_addIVx_of_quirk_off x hquirk, toNat_add_regWord _ _, rfl, fun _ => sameBut_setIndex s _, nofun⟩
  | true =>
    refine ⟨_, exec_addIVx_of_quirk_on x hquirk, toNat_add_regWord _ _, rfl, nofun,
      fun _ => ⟨sameBut_setIndex_setReg s _ _, ?_⟩⟩
    rw [State.advance_reg, State.setReg_reg, if_pos rfl, toNat_indexOverflowFlag]

/-- Settles O33: the handler writes 5 times the low nibble to I and advances. -/
theorem fontLookupIsFiveTimesTheDigit : Obligations.FontLookupIsFiveTimesTheDigit := by
  intro x s
  have hindex : (fontAddr (lowNibble (s.reg x))).toNat = 5 * ((s.reg x).toNat % 16) := by
    rw [toNat_fontAddr, val_lowNibble]
  exact ⟨toNat_packXkk_eq_opcode_add 0xF x 0x29, _, exec_ldFVx x s, hindex, rfl,
    sameBut_advance (sameBut_setIndex s _)⟩

/-- Settles O34: three stores at distinct addresses, each of which the font region may drop. -/
theorem decimalStoreWritesThreeDigits : Obligations.DecimalStoreWritesThreeDigits := by
  intro x s
  refine ⟨toNat_packXkk_eq_opcode_add 0xF x 0x33, _, exec_ldBVx x s, rfl, sameBut_advance (sameBut_setMem s _),
    fun k hk hregion => ?_, fun a ha => read_storeDigits_font s _ ha, fun a ha => read_storeDigits_miss s _ ha⟩
  rw [State.advance_memRead, State.setMem_memRead, read_storeDigits_hit s _ hk hregion, toNat_decimalDigit _ hk]

/-- Settles O35: the store of V[r] at I + r is read back there, unless the font region dropped it. -/
theorem registerStoreWritesTheRange : Obligations.RegisterStoreWritesTheRange := by
  intro x s
  refine ⟨toNat_packXkk_eq_opcode_add 0xF x 0x55, _, exec_ldMiVx x s, rfl, sameBut_advance (sameBut_setMem s _),
    fun r hr hregion => ?_, fun a ha => read_storeRegs_miss s _ a (.inl ha), fun a ha => ?_⟩
  · exact read_storeRegs_hit s (x.val + 1) r x.isLt (Nat.lt_succ_of_le hr) hregion
  · refine read_storeRegs_miss s (x.val + 1) a (.inr fun j hj => ?_)
    have hj16 : j < 16 := by omega
    exact (ha ⟨j, hj16⟩ (Nat.le_of_lt_succ hj)).symm

end Sys2Proof
end

section
/-! Dxyn of 44_display.md: the blit of the state is said in terms of `SpriteCovers`, for one draw and for two. -/

namespace Sys2Proof.Machine

/-- A display is known by its pixels. -/
theorem Display.eq_of_pixel_eq {d e : Display} (h : ∀ px py, d.pixel px py = e.pixel px py) : d = e :=
  Vector.ext fun py hy => Vector.ext fun px hx => h ⟨px, hx⟩ ⟨py, hy⟩

theorem exec_drwVxVyN (x y : RegIdx) (n : BitVec 4) (s : State) :
    exec (.drwVxVyN x y n) s =
      .next ((s.setFb (blitSprite s (s.reg x).toNat (s.reg y).toNat n.toNat).1).setReg 15
        (flagByte (blitSprite s (s.reg x).toNat (s.reg y).toNat n.toNat).2)).advance := rfl

/-- The draw changes exactly the pixels that the sprite covers (44_display.md R142). -/
theorem pixel_blitSprite_ne_iff (s : State) (x y : RegIdx) (n : BitVec 4) (px : Fin 64) (py : Fin 32) :
    (blitSprite s (s.reg x).toNat (s.reg y).toNat n.toNat).1.pixel px py ≠ s.fb.pixel px py ↔
      SpriteCovers s x y n px py := by
  rw [pixel_blitSprite s _ _ _ (by omega)]
  constructor
  · rintro ⟨r, hr, hy, c, hc, hx, hbit⟩
    exact ⟨r, hr, c, hc, hx, hy, hbit⟩
  · rintro ⟨r, hr, c, hc, hx, hy, hbit⟩
    exact ⟨r, hr, hy, c, hc, hx, hbit⟩

/-- The draw collides exactly when the sprite covers a pixel that is on (44_display.md R142). -/
theorem collision_blitSprite_iff (s : State) (x y : RegIdx) (n : BitVec 4) :
    (blitSprite s (s.reg x).toNat (s.reg y).toNat n.toNat).2 = true ↔
      ∃ px py, SpriteCovers s x y n px py ∧ s.fb.pixel px py = true := by
  rw [collision_blitSprite s _ _ _ (by omega)]
  constructor
  · rintro ⟨r, hr, c, hc, hbit, hon⟩
    exact ⟨_, _, ⟨r, hr, c, hc, rfl, rfl, hbit⟩, hon⟩
  · rintro ⟨px, py, ⟨r, hr, c, hc, hx, hy, hbit⟩, hon⟩
    obtain rfl : px = Fin.ofNat 64 ((s.reg x).toNat + c) := Fin.ext hx
    obtain rfl : py = Fin.ofNat 32 ((s.reg y).toNat + r) := Fin.ext hy
    exact ⟨r, hr, c, hc, hbit, hon⟩

/-- A pixel that changes in both of two draws or in neither is back where it was. -/
theorem eq_of_ne_iff_ne {a b c : Bool} (h : a ≠ b ↔ b ≠ c) : a = c := by
  revert a b c
  decide

theorem toNat_flagByte_eq_one_iff (b : Bool) : (flagByte b).toNat = 1 ↔ b = true := by
  cases b <;> decide

/-- What one Dxyn does (44_display.md R142). -/
theorem pixels_and_flag_of_exec_drwVxVyN {x y : RegIdx} {n : BitVec 4} {s t : State} (h : exec (.drwVxVyN x y n) s = .next t) :
    (∀ px py, t.fb.pixel px py ≠ s.fb.pixel px py ↔ SpriteCovers s x y n px py) ∧
      ((t.reg 15).toNat = 1 ↔ ∃ px py, SpriteCovers s x y n px py ∧ s.fb.pixel px py = true) := by
  obtain rfl := eq_of_exec_eq_next (exec_drwVxVyN x y n s) h
  refine ⟨pixel_blitSprite_ne_iff s x y n, ?_⟩
  rw [State.advance_reg, State.setReg_reg, if_pos rfl, toNat_flagByte_eq_one_iff, collision_blitSprite_iff]

/-- Which pixels a sprite covers depends on V[x], V[y], I and memory alone. -/
theorem spriteCovers_congr {s t : State} {x y : RegIdx} (hx : t.reg x = s.reg x) (hy : t.reg y = s.reg y)
    (hi : t.i = s.i) (hmem : ∀ a, memRead t a = memRead s a) (n : BitVec 4) (px : Fin 64) (py : Fin 32) :
    SpriteCovers t x y n px py ↔ SpriteCovers s x y n px py := by
  simp only [SpriteCovers, hx, hy, hi, hmem]

/-- A draw that leaves V[x] and V[y] alone leaves the sprite where it was. -/
theorem spriteCovers_of_exec_drwVxVyN {x y : RegIdx} {n : BitVec 4} {s t : State} (hx : x ≠ 15) (hy : y ≠ 15)
    (h : exec (.drwVxVyN x y n) s = .next t) (px : Fin 64) (py : Fin 32) :
    SpriteCovers t x y n px py ↔ SpriteCovers s x y n px py := by
  have hframe : SameBut [.display] [15] s t := sameBut_of_exec h
  exact spriteCovers_congr (hframe.reg_eq (by simpa using hx)) (hframe.reg_eq (by simpa using hy))
    (hframe.index_eq (by decide)) (hframe.memory_eq (by decide)) n px py

end Sys2Proof.Machine

namespace Sys2Proof

open Sys2Proof.Machine

/-- Settles O40: the blit inverts the pixels under a 1 bit, and its collision is written to V[15] last. -/
theorem drawInvertsThePixelsUnderTheSprite : Obligations.DrawInvertsThePixelsUnderTheSprite := by
  intro x y n s
  have hexec := exec_drwVxVyN x y n s
  obtain ⟨hpixels, hflag⟩ := pixels_and_flag_of_exec_drwVxVyN hexec
  refine ⟨toNat_packXyn 0xD x y n, _, hexec, rfl, hpixels, ?_, hflag, sameBut_of_exec hexec⟩
  rw [State.advance_reg, State.setReg_reg, if_pos rfl, toNat_flagByte]
  split
  · exact .inl rfl
  · exact .inr rfl

/-- Settles O41: both draws change the same pixels, so the second undoes the first; it collides where the first turned a
pixel on. -/
theorem drawingTwiceRestoresTheDisplay : Obligations.DrawingTwiceRestoresTheDisplay := by
  intro x y n s t hx hy h
  have hcovers := spriteCovers_of_exec_drwVxVyN hx hy h
  obtain ⟨hfirst, _⟩ := pixels_and_flag_of_exec_drwVxVyN h
  obtain ⟨u, hu⟩ : ∃ u, exec (.drwVxVyN x y n) t = .next u := ⟨_, exec_drwVxVyN x y n t⟩
  obtain ⟨hsecond, hflag⟩ := pixels_and_flag_of_exec_drwVxVyN hu
  refine ⟨u, hu, Display.eq_of_pixel_eq fun px py => ?display, hflag.trans ?flag⟩
  case display =>
    exact eq_of_ne_iff_ne ((hsecond px py).trans ((hcovers px py).trans (hfirst px py).symm))
  case flag =>
    refine exists_congr fun px => exists_congr fun py => ?_
    rw [hcovers]
    refine and_congr_right fun hcovered => ?_
    have hturned : t.fb.pixel px py = !s.fb.pixel px py := Bool.eq_not.mpr ((hfirst px py).mpr hcovered)
    rw [hturned, Bool.not_eq_true']

end Sys2Proof
end

section
/-! The host operations (60_exceptions.md; 70_reset_and_hazards.md): reset and `load`, ticks, the keys and the key wait,
and the two runs that stay where they are. -/

namespace Sys2Proof.Machine

/-! ### Reset and `load` -/

theorem resetWith_pressed (c : Config) (n : Nat) (k : KeyIdx) : (State.resetWith c n).pressed k = false := by
  simp only [State.pressed, State.resetWith, Vector.getElem_replicate]

theorem resetWith_stk (c : Config) (n : Nat) (j : Fin 16) : (State.resetWith c n).stk[j.val] = 0 := by
  simp only [State.resetWith, Vector.getElem_replicate]

/-- Memory above the font region is zero after reset (decision D7). -/
theorem resetWith_memRead_above_font (c : Config) (n : Nat) {a : Nat} (h : 0x04F < a % 0x1000) :
    memRead (State.resetWith c n) a = 0 := by
  rw [resetWith_memRead, Memory.unlisted, dif_neg]
  simp only [wrapAddr]
  omega

theorem memRead_load_image (image : List Byte) (s : State) (hfits : image.length ≤ 0xE00) {j : Nat}
    (hj : j < image.length) :
    memRead ((hostReset s).setMem (Memory.pokeList s.config.font s.mem 0x200 image)) (0x200 + j) = image[j] := by
  have hwrap : wrapAddr (0x200 + j) = 0x200 + j := Nat.mod_eq_of_lt (by omega)
  rw [memRead_load image s hfits, dif_pos (by omega)]
  simp only [hwrap, Nat.add_sub_cancel_left]

theorem memRead_load_outside (image : List Byte) (s : State) (hfits : image.length ≤ 0xE00) {a : Nat}
    (ha : a % 0x1000 < 0x200 ∨ 0x200 + image.length ≤ a % 0x1000) :
    memRead ((hostReset s).setMem (Memory.pokeList s.config.font s.mem 0x200 image)) a = memRead s a := by
  rw [memRead_load image s hfits, dif_neg]
  simp only [wrapAddr]
  omega

/-! ### Ticks -/

/-- n ticks write the two timers alone, each n lower and saturating at 0 (60_exceptions.md R171). -/
theorem performAll_ticks (n : Nat) (s : State) :
    ∃ a b : Byte, performAll (List.replicate n .tick) s = (s.setDt a).setSt b ∧
      a.toNat = s.dt.toNat - n ∧ b.toNat = s.st.toNat - n := by
  induction n generalizing s with
  | zero => exact ⟨s.dt, s.st, rfl, rfl, rfl⟩
  | succ n ih =>
    obtain ⟨a, b, hstate, ha, hb⟩ := ih (hostTick s)
    have hdt : (hostTick s).dt.toNat = s.dt.toNat - 1 := toNat_tickDown s.dt
    have hst : (hostTick s).st.toNat = s.st.toNat - 1 := toNat_tickDown s.st
    exact ⟨a, b, hstate, by omega, by omega⟩

theorem sameBut_setDt_setSt (s : State) (a b : Byte) :
    SameBut [.delayTimer, .soundTimer] [] s ((s.setDt a).setSt b) := by
  simp [SameBut]

/-! ### Keys -/

theorem edgeTaken_eq_true_iff {k : KeyIdx} {s : State} :
    edgeTaken k s = true ↔ s.pressed k = false ∧ s.run = .awaitingKey ∧ s.kpend = none := by
  simp [edgeTaken, and_assoc]

theorem hostKeyDown_kpend (k : KeyIdx) (s : State) :
    (hostKeyDown k s).kpend = if edgeTaken k s then some k else s.kpend := rfl

theorem sameBut_hostKeyDown (k : KeyIdx) (s : State) : SameBut [.keys, .keyWait] [] s (hostKeyDown k s) := by
  simp [SameBut, hostKeyDown]

theorem sameBut_hostKeyUp (k : KeyIdx) (s : State) : SameBut [.keys] [] s (hostKeyUp k s) := by
  simp [SameBut, hostKeyUp]

/-! ### The key wait -/

/-- `u` waits for V[x] since `s`: PC and the registers are those of `s`, and no press edge is pending. -/
def WaitsSince (x : RegIdx) (s u : State) : Prop :=
  u.pc = s.pc ∧ u.v = s.v ∧ u.run = .awaitingKey ∧ u.wreg = x ∧ u.kpend = none

theorem waitsSince_enterWait (x : RegIdx) (s : State) : WaitsSince x s (s.enterWait x) :=
  ⟨rfl, rfl, rfl, rfl, rfl⟩

/-- Steps, ticks and releases leave the wait as it is (decisions D15 to D17). -/
theorem WaitsSince.after_perform {x : RegIdx} {s u : State} (h : WaitsSince x s u) {op : HostOp}
    (hop : op = .step ∨ op = .tick ∨ ∃ q, op = .keyUp q) : WaitsSince x s (perform op u).1 := by
  obtain rfl | rfl | ⟨q, rfl⟩ := hop
  · have ⟨_, _, hrun, _, hkpend⟩ := h
    rw [perform, step_of_awaitingKey hrun, pollKey_none u hkpend]
    exact h
  · exact h
  · exact h

theorem WaitsSince.after_performAll {x : RegIdx} {s u : State} (h : WaitsSince x s u) {ops : List HostOp}
    (hops : ∀ op ∈ ops, op = .step ∨ op = .tick ∨ ∃ q, op = .keyUp q) : WaitsSince x s (performAll ops u) := by
  induction ops generalizing u with
  | nil => exact h
  | cons op ops ih =>
    obtain ⟨hop, hrest⟩ := List.forall_mem_cons.mp hops
    exact ih (h.after_perform hop) hrest

/-- A press of a key that is up makes the next `step` end the wait (decision D15). -/
theorem WaitsSince.step_after_keyDown {x : RegIdx} {s u : State} (h : WaitsSince x s u) {k : KeyIdx}
    (hup : u.pressed k = false) :
    ∃ t, step (hostKeyDown k u) = .next t ∧ (t.reg x).toNat = k.val ∧ t.pc = s.pc + 2 ∧ t.run = .running := by
  obtain ⟨hpc, _, hrun, rfl, hkpend⟩ := h
  have hpending : (hostKeyDown k u).kpend = some k := by
    rw [hostKeyDown_kpend, if_pos (edgeTaken_eq_true_iff.mpr ⟨hup, hrun, hkpend⟩)]
  refine ⟨pollKey (hostKeyDown k u), step_of_awaitingKey hrun, toNat_reg_pollKey hpending, ?_⟩
  rw [pollKey_some _ k hpending]
  exact ⟨congrArg (· + 2) hpc, rfl⟩

/-! ### RUN -/

/-- An operation that leaves RUN alone neither enters nor leaves the wait. -/
theorem run_change_of_run_eq {s t : State} {entered left : Prop} (h : t.run = s.run) :
    (s.run = .running → t.run = .awaitingKey → entered) ∧ (s.run = .awaitingKey → t.run = .running → left) := by
  rw [h]
  cases s.run <;> simp

/-- A `step` enters the wait only by Fx0A. -/
theorem decodes_to_ldVxK_of_step_enters_wait {s t : State} (hrun : s.run = .running) (h : step s = .next t)
    (hwait : t.run = .awaitingKey) : ∃ x, decodeWord (fetchWord s) = .ok (.ldVxK x) := by
  obtain ⟨hrun', _⟩ | ⟨_, i, hdecode, hexec⟩ := step_next_cases s t h
  · rw [hrun] at hrun'; cases hrun'
  · obtain ⟨hsame, _⟩ | ⟨x, rfl, _⟩ := keyWait_of_exec hexec
    · rw [hsame, hrun] at hwait; cases hwait
    · exact ⟨x, hdecode⟩

/-- A `step` leaves the wait only with a press edge pending. -/
theorem kpend_ne_none_of_step_leaves_wait {s t : State} (hrun : s.run = .awaitingKey) (h : step s = .next t)
    (hleft : t.run = .running) : s.kpend ≠ none := by
  intro hnone
  rw [step_of_awaitingKey hrun, pollKey_none s hnone] at h
  obtain rfl := Host.Outcome.next.inj h
  rw [hrun] at hleft
  cases hleft

/-! ### Runs that stay where they are -/

/-- From a jump to itself a `step` answers the same state (70_reset_and_hazards.md R201). -/
theorem Finished.step_eq {s : State} (h : Finished s) : step s = .next s := by
  obtain ⟨hrun, nnn, hdecode, htarget⟩ := h
  have hpc : immAddr nnn = s.pc := BitVec.eq_of_toNat_eq (by rw [toNat_immAddr, htarget])
  rw [step_of_decodeWord_ok hrun hdecode, exec_jp, hpc]
  rfl

theorem Finished.run_eq {s : State} (h : Finished s) (k : Nat) : core.run k s = .next s := by
  induction k with
  | zero => rfl
  | succ k ih =>
    have hstep : core.step s = .next s := h.step_eq
    simp only [Host.Core.run]
    rw [hstep]
    exact ih

/-- After reset the fetched word is 0x0000 (decision D7). -/
theorem fetchWord_resetWith (c : Config) (n : Nat) : fetchWord (State.resetWith c n) = 0x0000#16 := by
  have hpc : (State.resetWith c n).pc.toNat = 0x200 := rfl
  rw [fetchWord, hpc, resetWith_memRead_above_font c n (by decide), resetWith_memRead_above_font c n (by decide)]
  rfl

theorem step_resetWith (c : Config) (n : Nat) : step (State.resetWith c n) = .fault .decodeError :=
  step_of_decodeWord_error rfl (e := .class0) (by rw [fetchWord_resetWith]; rfl)

/-- A state whose `step` fails stays, however often the host steps it. -/
theorem performAll_steps_of_fault {s : State} {f : Fault} (h : step s = .fault f) (m : Nat) :
    performAll (List.replicate m .step) s = s := by
  induction m with
  | zero => rfl
  | succ m ih =>
    rw [List.replicate_succ, performAll, perform_step_of_fault h, ih]

end Sys2Proof.Machine

namespace Sys2Proof

open Sys2Proof.Machine

/-- Settles O45: the wait passes through steps, ticks and releases, and the press makes the edge that the poll takes. -/
theorem keyWaitEndsAtTheFirstPressEdge : Obligations.KeyWaitEndsAtTheFirstPressEdge := by
  intro x s t ops k h hops
  obtain rfl := eq_of_exec_eq_next (exec_ldVxK x s) h
  have hwaits := (waitsSince_enterWait x s).after_performAll hops
  have ⟨hpc, hv, hrun, _⟩ := hwaits
  exact ⟨hpc, hv, hrun, hwaits.step_after_keyDown⟩

/-- Settles O46: n ticks write the two timers alone. -/
theorem ticksCountDownAndSaturate : Obligations.TicksCountDownAndSaturate := by
  intro n s
  obtain ⟨a, b, hstate, ha, hb⟩ := performAll_ticks n s
  rw [hstate]
  exact ⟨ha, hb, rfl, sameBut_setDt_setSt s a b⟩

/-- Settles O47: a press writes KEY[k] and, when its edge is taken, KPEND; a release writes KEY[k] alone. -/
theorem keyEventsUpdateTheLatch : Obligations.KeyEventsUpdateTheLatch := by
  intro k s t u ht hu
  obtain ⟨rfl, _⟩ := Prod.mk.inj ht
  obtain ⟨rfl, _⟩ := Prod.mk.inj hu
  refine ⟨fun q => State.setKey_pressed s k q true, fun q => State.setKey_pressed s k q false, fun hedge => ?_,
    fun hno => ?_, rfl, rfl, rfl, sameBut_hostKeyDown k s, rfl, sameBut_hostKeyUp k s⟩
  · rw [hostKeyDown_kpend, if_pos (edgeTaken_eq_true_iff.mpr hedge)]
  · rw [hostKeyDown_kpend, if_neg (mt edgeTaken_eq_true_iff.mp hno)]

/-- Settles O48: `reset` is `State.resetWith` of the parameters, whose fields are the reset values. -/
theorem resetGivesEveryResetValue : Obligations.ResetGivesEveryResetValue := by
  intro s t h
  obtain ⟨rfl, _⟩ := Prod.mk.inj h
  obtain ⟨_, hfont, _⟩ := inv_resetWith s.config s.draws
  refine ⟨rfl, rfl, Display.pixel_clear, hfont, fun a ha => resetWith_memRead_above_font _ _ ha, resetWith_reg _ _, rfl,
    rfl, resetWith_stk _ _, rfl, rfl, resetWith_pressed _ _, rfl, rfl, rfl, fun hconfig hdraws => ?_⟩
  rw [hostReset, hconfig, hdraws, State.reset]

/-- Settles O49: the image fits below 0x1000, so no byte of it wraps. -/
theorem loadPlacesTheImageAndResetsTheRest : Obligations.LoadPlacesTheImageAndResetsTheRest := by
  intro image s
  exact ⟨perform_load_of_tooLarge s, fun hfits => ⟨_, perform_load_of_fits s hfits,
    fun _ hj => memRead_load_image image s hfits hj, fun _ ha => memRead_load_outside image s hfits ha, rfl⟩⟩

/-- Settles O50: 0xE00 bytes end at 0xFFF, and one byte more is too large. -/
theorem largestImageFillsMemory : Obligations.LargestImageFillsMemory := by
  intro image s
  refine ⟨fun hl => ⟨_, perform_load_of_fits s hl.le, fun a h => ?_, fun a ha => ?_⟩, fun hl => ?_⟩
  · have hsplit : 0x200 + (a - 0x200) = a := by omega
    have hread := memRead_load_image image s hl.le (j := a - 0x200) (by omega)
    rwa [hsplit] at hread
  · exact memRead_load_outside image s hl.le (.inl (by omega))
  · rw [perform_load_of_tooLarge s (by omega)]

/-- Settles O58: of the other operations only `reset` and `load` write RUN, and they write RUNNING. -/
theorem runStateChangesOnlyAtTheKeyWait : Obligations.RunStateChangesOnlyAtTheKeyWait := by
  intro op s
  cases op with
  | reset => exact ⟨nofun, fun _ _ => .inr (.inl rfl)⟩
  | load image =>
    by_cases hfits : image.length ≤ 0xE00
    · rw [perform_load_of_fits s hfits]
      exact ⟨nofun, fun _ _ => .inr (.inr ⟨image, rfl⟩)⟩
    · rw [perform_load_of_tooLarge s (by omega)]
      exact run_change_of_run_eq rfl
  | step =>
    obtain ⟨t, ht, hstate⟩ | hstate := perform_step_state s
    · rw [hstate]
      exact ⟨fun hrun hwait => ⟨rfl, decodes_to_ldVxK_of_step_enters_wait hrun ht hwait⟩,
        fun hrun hleft => .inl ⟨rfl, kpend_ne_none_of_step_leaves_wait hrun ht hleft⟩⟩
    · rw [hstate]
      exact run_change_of_run_eq rfl
  | tick | keyDown | keyUp => exact run_change_of_run_eq rfl

/-- Settles O59: one `step` from a jump to itself answers the same state, so any number of them does. -/
theorem finishedRunNeverChanges : Obligations.FinishedRunNeverChanges :=
  fun _ h => h.run_eq

/-- Settles O60: the fetched word is 0x0000, which is illegal, and an error changes nothing. -/
theorem nothingRunsBeforeALoad : Obligations.NothingRunsBeforeALoad :=
  fun c m n => ⟨step_resetWith c n, performAll_steps_of_fault (step_resetWith c n) m⟩

end Sys2Proof
end
